-- ==== Sys2Proof/Word.lean ====
section
/-!
DEFINITION. The widths and the plain bit types of the hardware: bytes, instruction words, register numbers, XLEN.
-/
namespace Sys2Proof

/-- One byte of memory (R50: memory is byte-addressed). -/
abbrev Byte := BitVec 8

/-- One instruction word: every instruction is 32 bits long (R90). -/
abbrev Word := BitVec 32

/-- The number of an integer register x0 to x31, a five-bit field (R20). -/
abbrev XReg := BitVec 5

/-- The number of a floating-point register f0 to f31, a five-bit field (R26). -/
abbrev FReg := BitVec 5

/-- The three-bit rounding-mode field `rm` or `frm`, reserved values included (R271, R29). -/
abbrev Rm := BitVec 3

/-- A container of the width of the widest register: the integer registers and the pc are held in 64 bits and used
through their low XLEN bits (log entry 7). -/
abbrev DWord := BitVec 64

/-- The open parameter XLEN, the width of the integer registers, of the pc and of addresses (R3). -/
inductive XLen where
  /-- XLEN = 32. -/
  | rv32
  /-- XLEN = 64. -/
  | rv64
deriving DecidableEq, Repr

/-- The number of bits XLEN stands for (R3). -/
def XLen.bits : XLen → Nat
  | .rv32 => 32
  | .rv64 => 64

end Sys2Proof
end

