-- ==== Sys2Proof/Syntax.lean ====
section
/-!
DEFINITION. The instructions: one constructor per row of the opcode table (R2, R123), its operands as the fields of the
row's format give them (R92 to R102, R121). `imm` is the raw immediate field, `off` the byte offset of a branch or jump
with its bit 0 (R105, R107), `shamt` a shift amount, `rm` the raw rounding-mode field, `aq` and `rl` the ordering bits,
`pred` and `succ` the sets of FENCE. The shift-immediate rows of XLEN = 32 and of XLEN = 64 are different constructors.
-/
namespace Sys2Proof

/-- An instruction: one constructor per row of the opcode table (R123), in the table's order. -/
inductive Instr where
  -- RV32I, the base integer instructions (40_rv32i.md)
  /-- LUI (R131). -/
  | lui (rd : XReg) (imm : BitVec 20)
  /-- AUIPC (R132). -/
  | auipc (rd : XReg) (imm : BitVec 20)
  /-- JAL (R133). -/
  | jal (rd : XReg) (off : BitVec 21)
  /-- JALR (R134). -/
  | jalr (rd rs1 : XReg) (imm : BitVec 12)
  /-- BEQ (R135). -/
  | beq (rs1 rs2 : XReg) (off : BitVec 13)
  /-- BNE (R136). -/
  | bne (rs1 rs2 : XReg) (off : BitVec 13)
  /-- BLT (R137). -/
  | blt (rs1 rs2 : XReg) (off : BitVec 13)
  /-- BGE (R138). -/
  | bge (rs1 rs2 : XReg) (off : BitVec 13)
  /-- BLTU (R139). -/
  | bltu (rs1 rs2 : XReg) (off : BitVec 13)
  /-- BGEU (R140). -/
  | bgeu (rs1 rs2 : XReg) (off : BitVec 13)
  /-- LB (R141). -/
  | lb (rd rs1 : XReg) (imm : BitVec 12)
  /-- LH (R142). -/
  | lh (rd rs1 : XReg) (imm : BitVec 12)
  /-- LW (R143). -/
  | lw (rd rs1 : XReg) (imm : BitVec 12)
  /-- LBU (R144). -/
  | lbu (rd rs1 : XReg) (imm : BitVec 12)
  /-- LHU (R145). -/
  | lhu (rd rs1 : XReg) (imm : BitVec 12)
  /-- SB (R146). -/
  | sb (rs2 rs1 : XReg) (imm : BitVec 12)
  /-- SH (R147). -/
  | sh (rs2 rs1 : XReg) (imm : BitVec 12)
  /-- SW (R148). -/
  | sw (rs2 rs1 : XReg) (imm : BitVec 12)
  /-- ADDI (R149). -/
  | addi (rd rs1 : XReg) (imm : BitVec 12)
  /-- SLTI (R150). -/
  | slti (rd rs1 : XReg) (imm : BitVec 12)
  /-- SLTIU (R151). -/
  | sltiu (rd rs1 : XReg) (imm : BitVec 12)
  /-- XORI (R152). -/
  | xori (rd rs1 : XReg) (imm : BitVec 12)
  /-- ORI (R153). -/
  | ori (rd rs1 : XReg) (imm : BitVec 12)
  /-- ANDI (R154). -/
  | andi (rd rs1 : XReg) (imm : BitVec 12)
  /-- SLLI (R155, XLEN = 32 only). -/
  | slli32 (rd rs1 : XReg) (shamt : BitVec 5)
  /-- SRLI (R156, XLEN = 32 only). -/
  | srli32 (rd rs1 : XReg) (shamt : BitVec 5)
  /-- SRAI (R157, XLEN = 32 only). -/
  | srai32 (rd rs1 : XReg) (shamt : BitVec 5)
  /-- ADD (R158). -/
  | add (rd rs1 rs2 : XReg)
  /-- SUB (R159). -/
  | sub (rd rs1 rs2 : XReg)
  /-- SLL (R160). -/
  | sll (rd rs1 rs2 : XReg)
  /-- SLT (R161). -/
  | slt (rd rs1 rs2 : XReg)
  /-- SLTU (R162). -/
  | sltu (rd rs1 rs2 : XReg)
  /-- XOR (R163). -/
  | xor (rd rs1 rs2 : XReg)
  /-- SRL (R164). -/
  | srl (rd rs1 rs2 : XReg)
  /-- SRA (R165). -/
  | sra (rd rs1 rs2 : XReg)
  /-- OR (R166). -/
  | or (rd rs1 rs2 : XReg)
  /-- AND (R167). -/
  | and (rd rs1 rs2 : XReg)
  /-- FENCE (R168). -/
  | fence (pred succ : BitVec 4)
  /-- FENCE.I (R169). -/
  | fenceI
  -- RV64I, the 64-bit additions to the base (41_rv64i.md)
  /-- LWU (R181, XLEN = 64 only). -/
  | lwu (rd rs1 : XReg) (imm : BitVec 12)
  /-- LD (R182, XLEN = 64 only). -/
  | ld (rd rs1 : XReg) (imm : BitVec 12)
  /-- SD (R183, XLEN = 64 only). -/
  | sd (rs2 rs1 : XReg) (imm : BitVec 12)
  /-- SLLI (R184, XLEN = 64 only). -/
  | slli64 (rd rs1 : XReg) (shamt : BitVec 6)
  /-- SRLI (R185, XLEN = 64 only). -/
  | srli64 (rd rs1 : XReg) (shamt : BitVec 6)
  /-- SRAI (R186, XLEN = 64 only). -/
  | srai64 (rd rs1 : XReg) (shamt : BitVec 6)
  /-- ADDIW (R187, XLEN = 64 only). -/
  | addiw (rd rs1 : XReg) (imm : BitVec 12)
  /-- SLLIW (R188, XLEN = 64 only). -/
  | slliw (rd rs1 : XReg) (shamt : BitVec 5)
  /-- SRLIW (R189, XLEN = 64 only). -/
  | srliw (rd rs1 : XReg) (shamt : BitVec 5)
  /-- SRAIW (R190, XLEN = 64 only). -/
  | sraiw (rd rs1 : XReg) (shamt : BitVec 5)
  /-- ADDW (R191, XLEN = 64 only). -/
  | addw (rd rs1 rs2 : XReg)
  /-- SUBW (R192, XLEN = 64 only). -/
  | subw (rd rs1 rs2 : XReg)
  /-- SLLW (R193, XLEN = 64 only). -/
  | sllw (rd rs1 rs2 : XReg)
  /-- SRLW (R194, XLEN = 64 only). -/
  | srlw (rd rs1 rs2 : XReg)
  /-- SRAW (R195, XLEN = 64 only). -/
  | sraw (rd rs1 rs2 : XReg)
  -- RV32M, multiply and divide (42_rv32m.md)
  /-- MUL (R201). -/
  | mul (rd rs1 rs2 : XReg)
  /-- MULH (R202). -/
  | mulh (rd rs1 rs2 : XReg)
  /-- MULHSU (R203). -/
  | mulhsu (rd rs1 rs2 : XReg)
  /-- MULHU (R204). -/
  | mulhu (rd rs1 rs2 : XReg)
  /-- DIV (R205). -/
  | div (rd rs1 rs2 : XReg)
  /-- DIVU (R206). -/
  | divu (rd rs1 rs2 : XReg)
  /-- REM (R207). -/
  | rem (rd rs1 rs2 : XReg)
  /-- REMU (R208). -/
  | remu (rd rs1 rs2 : XReg)
  -- RV64M, word multiply and divide (43_rv64m.md)
  /-- MULW (R216, XLEN = 64 only). -/
  | mulw (rd rs1 rs2 : XReg)
  /-- DIVW (R217, XLEN = 64 only). -/
  | divw (rd rs1 rs2 : XReg)
  /-- DIVUW (R218, XLEN = 64 only). -/
  | divuw (rd rs1 rs2 : XReg)
  /-- REMW (R219, XLEN = 64 only). -/
  | remw (rd rs1 rs2 : XReg)
  /-- REMUW (R220, XLEN = 64 only). -/
  | remuw (rd rs1 rs2 : XReg)
  -- RV32A, atomic word instructions (44_rv32a.md)
  /-- LR.W (R229). -/
  | lrW (rd rs1 : XReg) (aq rl : Bool)
  /-- SC.W (R230). -/
  | scW (rd rs2 rs1 : XReg) (aq rl : Bool)
  /-- AMOSWAP.W (R231). -/
  | amoswapW (rd rs2 rs1 : XReg) (aq rl : Bool)
  /-- AMOADD.W (R232). -/
  | amoaddW (rd rs2 rs1 : XReg) (aq rl : Bool)
  /-- AMOXOR.W (R233). -/
  | amoxorW (rd rs2 rs1 : XReg) (aq rl : Bool)
  /-- AMOOR.W (R234). -/
  | amoorW (rd rs2 rs1 : XReg) (aq rl : Bool)
  /-- AMOAND.W (R235). -/
  | amoandW (rd rs2 rs1 : XReg) (aq rl : Bool)
  /-- AMOMIN.W (R236). -/
  | amominW (rd rs2 rs1 : XReg) (aq rl : Bool)
  /-- AMOMAX.W (R237). -/
  | amomaxW (rd rs2 rs1 : XReg) (aq rl : Bool)
  /-- AMOMINU.W (R238). -/
  | amominuW (rd rs2 rs1 : XReg) (aq rl : Bool)
  /-- AMOMAXU.W (R239). -/
  | amomaxuW (rd rs2 rs1 : XReg) (aq rl : Bool)
  -- RV64A, atomic doubleword instructions (45_rv64a.md)
  /-- LR.D (R251, XLEN = 64 only). -/
  | lrD (rd rs1 : XReg) (aq rl : Bool)
  /-- SC.D (R252, XLEN = 64 only). -/
  | scD (rd rs2 rs1 : XReg) (aq rl : Bool)
  /-- AMOSWAP.D (R253, XLEN = 64 only). -/
  | amoswapD (rd rs2 rs1 : XReg) (aq rl : Bool)
  /-- AMOADD.D (R254, XLEN = 64 only). -/
  | amoaddD (rd rs2 rs1 : XReg) (aq rl : Bool)
  /-- AMOXOR.D (R255, XLEN = 64 only). -/
  | amoxorD (rd rs2 rs1 : XReg) (aq rl : Bool)
  /-- AMOOR.D (R256, XLEN = 64 only). -/
  | amoorD (rd rs2 rs1 : XReg) (aq rl : Bool)
  /-- AMOAND.D (R257, XLEN = 64 only). -/
  | amoandD (rd rs2 rs1 : XReg) (aq rl : Bool)
  /-- AMOMIN.D (R258, XLEN = 64 only). -/
  | amominD (rd rs2 rs1 : XReg) (aq rl : Bool)
  /-- AMOMAX.D (R259, XLEN = 64 only). -/
  | amomaxD (rd rs2 rs1 : XReg) (aq rl : Bool)
  /-- AMOMINU.D (R260, XLEN = 64 only). -/
  | amominuD (rd rs2 rs1 : XReg) (aq rl : Bool)
  /-- AMOMAXU.D (R261, XLEN = 64 only). -/
  | amomaxuD (rd rs2 rs1 : XReg) (aq rl : Bool)
  -- RV32F, single precision (46_rv32f.md)
  /-- FLW (R275). -/
  | flw (rd : FReg) (rs1 : XReg) (imm : BitVec 12)
  /-- FSW (R276). -/
  | fsw (rs2 : FReg) (rs1 : XReg) (imm : BitVec 12)
  /-- FMADD.S (R277). -/
  | fmaddS (rd rs1 rs2 rs3 : FReg) (rm : Rm)
  /-- FMSUB.S (R278). -/
  | fmsubS (rd rs1 rs2 rs3 : FReg) (rm : Rm)
  /-- FNMSUB.S (R279). -/
  | fnmsubS (rd rs1 rs2 rs3 : FReg) (rm : Rm)
  /-- FNMADD.S (R280). -/
  | fnmaddS (rd rs1 rs2 rs3 : FReg) (rm : Rm)
  /-- FADD.S (R281). -/
  | faddS (rd rs1 rs2 : FReg) (rm : Rm)
  /-- FSUB.S (R282). -/
  | fsubS (rd rs1 rs2 : FReg) (rm : Rm)
  /-- FMUL.S (R283). -/
  | fmulS (rd rs1 rs2 : FReg) (rm : Rm)
  /-- FDIV.S (R284). -/
  | fdivS (rd rs1 rs2 : FReg) (rm : Rm)
  /-- FSGNJ.S (R285). -/
  | fsgnjS (rd rs1 rs2 : FReg)
  /-- FSGNJN.S (R286). -/
  | fsgnjnS (rd rs1 rs2 : FReg)
  /-- FSGNJX.S (R287). -/
  | fsgnjxS (rd rs1 rs2 : FReg)
  /-- FMIN.S (R288). -/
  | fminS (rd rs1 rs2 : FReg)
  /-- FMAX.S (R289). -/
  | fmaxS (rd rs1 rs2 : FReg)
  /-- FSQRT.S (R290). -/
  | fsqrtS (rd rs1 : FReg) (rm : Rm)
  /-- FLE.S (R291). -/
  | fleS (rd : XReg) (rs1 rs2 : FReg)
  /-- FLT.S (R292). -/
  | fltS (rd : XReg) (rs1 rs2 : FReg)
  /-- FEQ.S (R293). -/
  | feqS (rd : XReg) (rs1 rs2 : FReg)
  /-- FCVT.W.S (R294). -/
  | fcvtWS (rd : XReg) (rs1 : FReg) (rm : Rm)
  /-- FCVT.WU.S (R295). -/
  | fcvtWuS (rd : XReg) (rs1 : FReg) (rm : Rm)
  /-- FCVT.S.W (R296). -/
  | fcvtSW (rd : FReg) (rs1 : XReg) (rm : Rm)
  /-- FCVT.S.WU (R297). -/
  | fcvtSWu (rd : FReg) (rs1 : XReg) (rm : Rm)
  /-- FMV.X.S (R298). -/
  | fmvXS (rd : XReg) (rs1 : FReg)
  /-- FCLASS.S (R299). -/
  | fclassS (rd : XReg) (rs1 : FReg)
  /-- FMV.S.X (R300). -/
  | fmvSX (rd : FReg) (rs1 : XReg)
  -- RV64F, single precision and 64-bit integers (47_rv64f.md)
  /-- FCVT.L.S (R321, XLEN = 64 only). -/
  | fcvtLS (rd : XReg) (rs1 : FReg) (rm : Rm)
  /-- FCVT.LU.S (R322, XLEN = 64 only). -/
  | fcvtLuS (rd : XReg) (rs1 : FReg) (rm : Rm)
  /-- FCVT.S.L (R323, XLEN = 64 only). -/
  | fcvtSL (rd : FReg) (rs1 : XReg) (rm : Rm)
  /-- FCVT.S.LU (R324, XLEN = 64 only). -/
  | fcvtSLu (rd : FReg) (rs1 : XReg) (rm : Rm)
  -- RV32D, double precision (48_rv32d.md)
  /-- FLD (R331). -/
  | fld (rd : FReg) (rs1 : XReg) (imm : BitVec 12)
  /-- FSD (R332). -/
  | fsd (rs2 : FReg) (rs1 : XReg) (imm : BitVec 12)
  /-- FMADD.D (R333). -/
  | fmaddD (rd rs1 rs2 rs3 : FReg) (rm : Rm)
  /-- FMSUB.D (R334). -/
  | fmsubD (rd rs1 rs2 rs3 : FReg) (rm : Rm)
  /-- FNMSUB.D (R335). -/
  | fnmsubD (rd rs1 rs2 rs3 : FReg) (rm : Rm)
  /-- FNMADD.D (R336). -/
  | fnmaddD (rd rs1 rs2 rs3 : FReg) (rm : Rm)
  /-- FADD.D (R337). -/
  | faddD (rd rs1 rs2 : FReg) (rm : Rm)
  /-- FSUB.D (R338). -/
  | fsubD (rd rs1 rs2 : FReg) (rm : Rm)
  /-- FMUL.D (R339). -/
  | fmulD (rd rs1 rs2 : FReg) (rm : Rm)
  /-- FDIV.D (R340). -/
  | fdivD (rd rs1 rs2 : FReg) (rm : Rm)
  /-- FSGNJ.D (R341). -/
  | fsgnjD (rd rs1 rs2 : FReg)
  /-- FSGNJN.D (R342). -/
  | fsgnjnD (rd rs1 rs2 : FReg)
  /-- FSGNJX.D (R343). -/
  | fsgnjxD (rd rs1 rs2 : FReg)
  /-- FMIN.D (R344). -/
  | fminD (rd rs1 rs2 : FReg)
  /-- FMAX.D (R345). -/
  | fmaxD (rd rs1 rs2 : FReg)
  /-- FSQRT.D (R346). -/
  | fsqrtD (rd rs1 : FReg) (rm : Rm)
  /-- FLE.D (R347). -/
  | fleD (rd : XReg) (rs1 rs2 : FReg)
  /-- FLT.D (R348). -/
  | fltD (rd : XReg) (rs1 rs2 : FReg)
  /-- FEQ.D (R349). -/
  | feqD (rd : XReg) (rs1 rs2 : FReg)
  /-- FCVT.W.D (R350). -/
  | fcvtWD (rd : XReg) (rs1 : FReg) (rm : Rm)
  /-- FCVT.WU.D (R351). -/
  | fcvtWuD (rd : XReg) (rs1 : FReg) (rm : Rm)
  /-- FCVT.D.W (R352). -/
  | fcvtDW (rd : FReg) (rs1 : XReg) (rm : Rm)
  /-- FCVT.D.WU (R353). -/
  | fcvtDWu (rd : FReg) (rs1 : XReg) (rm : Rm)
  /-- FCLASS.D (R354). -/
  | fclassD (rd : XReg) (rs1 : FReg)
  -- RV64D, double precision and 64-bit integers (49_rv64d.md)
  /-- FCVT.L.D (R371, XLEN = 64 only). -/
  | fcvtLD (rd : XReg) (rs1 : FReg) (rm : Rm)
  /-- FCVT.LU.D (R372, XLEN = 64 only). -/
  | fcvtLuD (rd : XReg) (rs1 : FReg) (rm : Rm)
  /-- FCVT.D.L (R373, XLEN = 64 only). -/
  | fcvtDL (rd : FReg) (rs1 : XReg) (rm : Rm)
  /-- FCVT.D.LU (R374, XLEN = 64 only). -/
  | fcvtDLu (rd : FReg) (rs1 : XReg) (rm : Rm)
  /-- FMV.X.D (R375, XLEN = 64 only). -/
  | fmvXD (rd : XReg) (rs1 : FReg)
  /-- FMV.D.X (R376, XLEN = 64 only). -/
  | fmvDX (rd : FReg) (rs1 : XReg)
deriving DecidableEq, Repr

end Sys2Proof
end

