-- ==== Sys2Proof/WellFormed.lean ====
section
/-!
DEFINITION. Which instructions have an encoding: the row exists at the current XLEN (R113), and a branch or jump offset
is even (R105, R107). Every other operand fits its field by its type.
-/
namespace Sys2Proof

/-- The widths of XLEN at which a row of the opcode table exists. -/
inductive Admission where
  /-- At both widths. -/
  | both
  /-- Only at XLEN = 32: the I-shift5 rows of SLLI, SRLI, SRAI (R98, R113). -/
  | only32
  /-- Only at XLEN = 64: the rows of the five "(64bit)" tables (R113). -/
  | only64
deriving DecidableEq, Repr

/-- `a.admits xl`: a row with the XLEN column `a` exists at width `xl` (R110, R113). -/
def Admission.admits : Admission → XLen → Bool
  | .both, _ => true
  | .only32, .rv32 => true
  | .only32, .rv64 => false
  | .only64, .rv32 => false
  | .only64, .rv64 => true

/-- The XLEN column of the instruction's row (R123). -/
def Instr.admission : Instr → Admission
  | .lui _ _ | .auipc _ _ | .jal _ _ | .jalr _ _ _ | .beq _ _ _ | .bne _ _ _ | .blt _ _ _ | .bge _ _ _
  | .bltu _ _ _ | .bgeu _ _ _ | .lb _ _ _ | .lh _ _ _ | .lw _ _ _ | .lbu _ _ _ | .lhu _ _ _ | .sb _ _ _ | .sh _ _ _
  | .sw _ _ _ | .addi _ _ _ | .slti _ _ _ | .sltiu _ _ _ | .xori _ _ _ | .ori _ _ _ | .andi _ _ _ | .add _ _ _
  | .sub _ _ _ | .sll _ _ _ | .slt _ _ _ | .sltu _ _ _ | .xor _ _ _ | .srl _ _ _ | .sra _ _ _ | .or _ _ _
  | .and _ _ _ | .fence _ _ | .fenceI | .mul _ _ _ | .mulh _ _ _ | .mulhsu _ _ _ | .mulhu _ _ _ | .div _ _ _
  | .divu _ _ _ | .rem _ _ _ | .remu _ _ _ | .lrW _ _ _ _ | .scW _ _ _ _ _ | .amoswapW _ _ _ _ _
  | .amoaddW _ _ _ _ _ | .amoxorW _ _ _ _ _ | .amoorW _ _ _ _ _ | .amoandW _ _ _ _ _ | .amominW _ _ _ _ _
  | .amomaxW _ _ _ _ _ | .amominuW _ _ _ _ _ | .amomaxuW _ _ _ _ _ | .flw _ _ _ | .fsw _ _ _ | .fmaddS _ _ _ _ _
  | .fmsubS _ _ _ _ _ | .fnmsubS _ _ _ _ _ | .fnmaddS _ _ _ _ _ | .faddS _ _ _ _ | .fsubS _ _ _ _ | .fmulS _ _ _ _
  | .fdivS _ _ _ _ | .fsgnjS _ _ _ | .fsgnjnS _ _ _ | .fsgnjxS _ _ _ | .fminS _ _ _ | .fmaxS _ _ _ | .fsqrtS _ _ _
  | .fleS _ _ _ | .fltS _ _ _ | .feqS _ _ _ | .fcvtWS _ _ _ | .fcvtWuS _ _ _ | .fcvtSW _ _ _ | .fcvtSWu _ _ _
  | .fmvXS _ _ | .fclassS _ _ | .fmvSX _ _ | .fld _ _ _ | .fsd _ _ _ | .fmaddD _ _ _ _ _ | .fmsubD _ _ _ _ _
  | .fnmsubD _ _ _ _ _ | .fnmaddD _ _ _ _ _ | .faddD _ _ _ _ | .fsubD _ _ _ _ | .fmulD _ _ _ _ | .fdivD _ _ _ _
  | .fsgnjD _ _ _ | .fsgnjnD _ _ _ | .fsgnjxD _ _ _ | .fminD _ _ _ | .fmaxD _ _ _ | .fsqrtD _ _ _ | .fleD _ _ _
  | .fltD _ _ _ | .feqD _ _ _ | .fcvtWD _ _ _ | .fcvtWuD _ _ _ | .fcvtDW _ _ _ | .fcvtDWu _ _ _ | .fclassD _ _ => .both
  | .slli32 _ _ _ | .srli32 _ _ _ | .srai32 _ _ _ => .only32
  | .lwu _ _ _ | .ld _ _ _ | .sd _ _ _ | .slli64 _ _ _ | .srli64 _ _ _ | .srai64 _ _ _ | .addiw _ _ _
  | .slliw _ _ _ | .srliw _ _ _ | .sraiw _ _ _ | .addw _ _ _ | .subw _ _ _ | .sllw _ _ _ | .srlw _ _ _
  | .sraw _ _ _ | .mulw _ _ _ | .divw _ _ _ | .divuw _ _ _ | .remw _ _ _ | .remuw _ _ _ | .lrD _ _ _ _
  | .scD _ _ _ _ _ | .amoswapD _ _ _ _ _ | .amoaddD _ _ _ _ _ | .amoxorD _ _ _ _ _ | .amoorD _ _ _ _ _
  | .amoandD _ _ _ _ _ | .amominD _ _ _ _ _ | .amomaxD _ _ _ _ _ | .amominuD _ _ _ _ _ | .amomaxuD _ _ _ _ _
  | .fcvtLS _ _ _ | .fcvtLuS _ _ _ | .fcvtSL _ _ _ | .fcvtSLu _ _ _ | .fcvtLD _ _ _ | .fcvtLuD _ _ _
  | .fcvtDL _ _ _ | .fcvtDLu _ _ _ | .fmvXD _ _ | .fmvDX _ _ => .only64

/-- The byte offset of a branch or of JAL, where the instruction has one, has bit 0 zero (R105, R107). -/
def Instr.offsetEven : Instr → Bool
  | .beq _ _ off | .bne _ _ off | .blt _ _ off | .bge _ _ off | .bltu _ _ off | .bgeu _ _ off => !off.getLsbD 0
  | .jal _ off => !off.getLsbD 0
  | .lui _ _ | .auipc _ _ | .jalr _ _ _ | .lb _ _ _ | .lh _ _ _ | .lw _ _ _ | .lbu _ _ _ | .lhu _ _ _ | .sb _ _ _
  | .sh _ _ _ | .sw _ _ _ | .addi _ _ _ | .slti _ _ _ | .sltiu _ _ _ | .xori _ _ _ | .ori _ _ _ | .andi _ _ _
  | .slli32 _ _ _ | .srli32 _ _ _ | .srai32 _ _ _ | .add _ _ _ | .sub _ _ _ | .sll _ _ _ | .slt _ _ _ | .sltu _ _ _
  | .xor _ _ _ | .srl _ _ _ | .sra _ _ _ | .or _ _ _ | .and _ _ _ | .fence _ _ | .fenceI | .lwu _ _ _ | .ld _ _ _
  | .sd _ _ _ | .slli64 _ _ _ | .srli64 _ _ _ | .srai64 _ _ _ | .addiw _ _ _ | .slliw _ _ _ | .srliw _ _ _
  | .sraiw _ _ _ | .addw _ _ _ | .subw _ _ _ | .sllw _ _ _ | .srlw _ _ _ | .sraw _ _ _ | .mul _ _ _ | .mulh _ _ _
  | .mulhsu _ _ _ | .mulhu _ _ _ | .div _ _ _ | .divu _ _ _ | .rem _ _ _ | .remu _ _ _ | .mulw _ _ _ | .divw _ _ _
  | .divuw _ _ _ | .remw _ _ _ | .remuw _ _ _ | .lrW _ _ _ _ | .scW _ _ _ _ _ | .amoswapW _ _ _ _ _
  | .amoaddW _ _ _ _ _ | .amoxorW _ _ _ _ _ | .amoorW _ _ _ _ _ | .amoandW _ _ _ _ _ | .amominW _ _ _ _ _
  | .amomaxW _ _ _ _ _ | .amominuW _ _ _ _ _ | .amomaxuW _ _ _ _ _ | .lrD _ _ _ _ | .scD _ _ _ _ _
  | .amoswapD _ _ _ _ _ | .amoaddD _ _ _ _ _ | .amoxorD _ _ _ _ _ | .amoorD _ _ _ _ _ | .amoandD _ _ _ _ _
  | .amominD _ _ _ _ _ | .amomaxD _ _ _ _ _ | .amominuD _ _ _ _ _ | .amomaxuD _ _ _ _ _ | .flw _ _ _ | .fsw _ _ _
  | .fmaddS _ _ _ _ _ | .fmsubS _ _ _ _ _ | .fnmsubS _ _ _ _ _ | .fnmaddS _ _ _ _ _ | .faddS _ _ _ _
  | .fsubS _ _ _ _ | .fmulS _ _ _ _ | .fdivS _ _ _ _ | .fsgnjS _ _ _ | .fsgnjnS _ _ _ | .fsgnjxS _ _ _
  | .fminS _ _ _ | .fmaxS _ _ _ | .fsqrtS _ _ _ | .fleS _ _ _ | .fltS _ _ _ | .feqS _ _ _ | .fcvtWS _ _ _
  | .fcvtWuS _ _ _ | .fcvtSW _ _ _ | .fcvtSWu _ _ _ | .fmvXS _ _ | .fclassS _ _ | .fmvSX _ _ | .fcvtLS _ _ _
  | .fcvtLuS _ _ _ | .fcvtSL _ _ _ | .fcvtSLu _ _ _ | .fld _ _ _ | .fsd _ _ _ | .fmaddD _ _ _ _ _
  | .fmsubD _ _ _ _ _ | .fnmsubD _ _ _ _ _ | .fnmaddD _ _ _ _ _ | .faddD _ _ _ _ | .fsubD _ _ _ _ | .fmulD _ _ _ _
  | .fdivD _ _ _ _ | .fsgnjD _ _ _ | .fsgnjnD _ _ _ | .fsgnjxD _ _ _ | .fminD _ _ _ | .fmaxD _ _ _ | .fsqrtD _ _ _
  | .fleD _ _ _ | .fltD _ _ _ | .feqD _ _ _ | .fcvtWD _ _ _ | .fcvtWuD _ _ _ | .fcvtDW _ _ _ | .fcvtDWu _ _ _
  | .fclassD _ _ | .fcvtLD _ _ _ | .fcvtLuD _ _ _ | .fcvtDL _ _ _ | .fcvtDLu _ _ _ | .fmvXD _ _ | .fmvDX _ _ => true

/-- `i.wf xl`: instruction `i` has an encoding on a machine of width `xl`. -/
def Instr.wf (xl : XLen) (i : Instr) : Bool := i.admission.admits xl && i.offsetEven

end Sys2Proof
end

