-- ==== Sys2Proof/Decode.lean ====
section
/-!
DEFINITION. Decoding and encoding. The decoder is the opcode table of R123, one row per row of the spec's table: the
XLEN column, the mask, the match value, and how the fields of a matching word become the operands. It is total on any
bytes and rejects by name. After it stands the encoder, written from the formats R92 to R102 and the fixed fields of the
encodings, not from the masks: the round trip checks the one against the other.
-/
namespace Sys2Proof

/-! ### The fields of a word (R91 to R102) -/

/-- `rd = inst[11:7]` (R9). -/
def fieldRd (w : Word) : BitVec 5 := w.extractLsb' 7 5
/-- `rs1 = inst[19:15]` (R9). -/
def fieldRs1 (w : Word) : BitVec 5 := w.extractLsb' 15 5
/-- `rs2 = inst[24:20]` (R9). -/
def fieldRs2 (w : Word) : BitVec 5 := w.extractLsb' 20 5
/-- `rs3 = inst[31:27]` (R9). -/
def fieldRs3 (w : Word) : BitVec 5 := w.extractLsb' 27 5
/-- `rm = inst[14:12]` (R9). -/
def fieldRm (w : Word) : Rm := w.extractLsb' 12 3
/-- `aq = inst[26]` (R100). -/
def fieldAq (w : Word) : Bool := w.getLsbD 26
/-- `rl = inst[25]` (R100). -/
def fieldRl (w : Word) : Bool := w.getLsbD 25
/-- `pred = inst[27:24]` (R101). -/
def fieldPred (w : Word) : BitVec 4 := w.extractLsb' 24 4
/-- `succ = inst[23:20]` (R101). -/
def fieldSucc (w : Word) : BitVec 4 := w.extractLsb' 20 4
/-- The I-immediate field `inst[31:20]` (R103). -/
def immI (w : Word) : BitVec 12 := w.extractLsb' 20 12
/-- The S-immediate field `inst[31:25] ++ inst[11:7]` (R104). -/
def immS (w : Word) : BitVec 12 := w.extractLsb' 25 7 ++ w.extractLsb' 7 5
/-- The B-immediate `inst[31] ++ inst[7] ++ inst[30:25] ++ inst[11:8] ++ 0` (R105). -/
def immB (w : Word) : BitVec 13 :=
  w.extractLsb' 31 1 ++ w.extractLsb' 7 1 ++ w.extractLsb' 25 6 ++ w.extractLsb' 8 4 ++ (0 : BitVec 1)
/-- The U-immediate field `inst[31:12]` (R106). -/
def immU (w : Word) : BitVec 20 := w.extractLsb' 12 20
/-- The J-immediate `inst[31] ++ inst[19:12] ++ inst[20] ++ inst[30:21] ++ 0` (R107). -/
def immJ (w : Word) : BitVec 21 :=
  w.extractLsb' 31 1 ++ w.extractLsb' 12 8 ++ w.extractLsb' 20 1 ++ w.extractLsb' 21 10 ++ (0 : BitVec 1)
/-- The shift amount `inst[24:20]` of the I-shift5 format (R108). -/
def shamt5 (w : Word) : BitVec 5 := w.extractLsb' 20 5
/-- The shift amount `inst[25:20]` of the I-shift6 format (R108). -/
def shamt6 (w : Word) : BitVec 6 := w.extractLsb' 20 6

/-! ### The opcode table (R123) -/

/-- One row of the opcode table: a word `w` is this instruction when `w & mask = value` and the XLEN column admits the
current XLEN (R110, R123); `build` takes the operands out of the word. -/
structure Row where
  /-- The XLEN column. -/
  xlens : Admission
  /-- The bits the row fixes. -/
  mask : Word
  /-- The values of the fixed bits (the table's column `match`). -/
  value : Word
  /-- The instruction a matching word stands for. -/
  build : Word → Instr

/-- The rows of RV32I, the base integer instructions (40_rv32i.md). -/
def rowsRv32i : List Row := [
  ⟨.both, 0x0000007f, 0x00000037, fun w => .lui (fieldRd w) (immU w)⟩,
  ⟨.both, 0x0000007f, 0x00000017, fun w => .auipc (fieldRd w) (immU w)⟩,
  ⟨.both, 0x0000007f, 0x0000006f, fun w => .jal (fieldRd w) (immJ w)⟩,
  ⟨.both, 0x0000707f, 0x00000067, fun w => .jalr (fieldRd w) (fieldRs1 w) (immI w)⟩,
  ⟨.both, 0x0000707f, 0x00000063, fun w => .beq (fieldRs1 w) (fieldRs2 w) (immB w)⟩,
  ⟨.both, 0x0000707f, 0x00001063, fun w => .bne (fieldRs1 w) (fieldRs2 w) (immB w)⟩,
  ⟨.both, 0x0000707f, 0x00004063, fun w => .blt (fieldRs1 w) (fieldRs2 w) (immB w)⟩,
  ⟨.both, 0x0000707f, 0x00005063, fun w => .bge (fieldRs1 w) (fieldRs2 w) (immB w)⟩,
  ⟨.both, 0x0000707f, 0x00006063, fun w => .bltu (fieldRs1 w) (fieldRs2 w) (immB w)⟩,
  ⟨.both, 0x0000707f, 0x00007063, fun w => .bgeu (fieldRs1 w) (fieldRs2 w) (immB w)⟩,
  ⟨.both, 0x0000707f, 0x00000003, fun w => .lb (fieldRd w) (fieldRs1 w) (immI w)⟩,
  ⟨.both, 0x0000707f, 0x00001003, fun w => .lh (fieldRd w) (fieldRs1 w) (immI w)⟩,
  ⟨.both, 0x0000707f, 0x00002003, fun w => .lw (fieldRd w) (fieldRs1 w) (immI w)⟩,
  ⟨.both, 0x0000707f, 0x00004003, fun w => .lbu (fieldRd w) (fieldRs1 w) (immI w)⟩,
  ⟨.both, 0x0000707f, 0x00005003, fun w => .lhu (fieldRd w) (fieldRs1 w) (immI w)⟩,
  ⟨.both, 0x0000707f, 0x00000023, fun w => .sb (fieldRs2 w) (fieldRs1 w) (immS w)⟩,
  ⟨.both, 0x0000707f, 0x00001023, fun w => .sh (fieldRs2 w) (fieldRs1 w) (immS w)⟩,
  ⟨.both, 0x0000707f, 0x00002023, fun w => .sw (fieldRs2 w) (fieldRs1 w) (immS w)⟩,
  ⟨.both, 0x0000707f, 0x00000013, fun w => .addi (fieldRd w) (fieldRs1 w) (immI w)⟩,
  ⟨.both, 0x0000707f, 0x00002013, fun w => .slti (fieldRd w) (fieldRs1 w) (immI w)⟩,
  ⟨.both, 0x0000707f, 0x00003013, fun w => .sltiu (fieldRd w) (fieldRs1 w) (immI w)⟩,
  ⟨.both, 0x0000707f, 0x00004013, fun w => .xori (fieldRd w) (fieldRs1 w) (immI w)⟩,
  ⟨.both, 0x0000707f, 0x00006013, fun w => .ori (fieldRd w) (fieldRs1 w) (immI w)⟩,
  ⟨.both, 0x0000707f, 0x00007013, fun w => .andi (fieldRd w) (fieldRs1 w) (immI w)⟩,
  ⟨.only32, 0xfe00707f, 0x00001013, fun w => .slli32 (fieldRd w) (fieldRs1 w) (shamt5 w)⟩,
  ⟨.only32, 0xfe00707f, 0x00005013, fun w => .srli32 (fieldRd w) (fieldRs1 w) (shamt5 w)⟩,
  ⟨.only32, 0xfe00707f, 0x40005013, fun w => .srai32 (fieldRd w) (fieldRs1 w) (shamt5 w)⟩,
  ⟨.both, 0xfe00707f, 0x00000033, fun w => .add (fieldRd w) (fieldRs1 w) (fieldRs2 w)⟩,
  ⟨.both, 0xfe00707f, 0x40000033, fun w => .sub (fieldRd w) (fieldRs1 w) (fieldRs2 w)⟩,
  ⟨.both, 0xfe00707f, 0x00001033, fun w => .sll (fieldRd w) (fieldRs1 w) (fieldRs2 w)⟩,
  ⟨.both, 0xfe00707f, 0x00002033, fun w => .slt (fieldRd w) (fieldRs1 w) (fieldRs2 w)⟩,
  ⟨.both, 0xfe00707f, 0x00003033, fun w => .sltu (fieldRd w) (fieldRs1 w) (fieldRs2 w)⟩,
  ⟨.both, 0xfe00707f, 0x00004033, fun w => .xor (fieldRd w) (fieldRs1 w) (fieldRs2 w)⟩,
  ⟨.both, 0xfe00707f, 0x00005033, fun w => .srl (fieldRd w) (fieldRs1 w) (fieldRs2 w)⟩,
  ⟨.both, 0xfe00707f, 0x40005033, fun w => .sra (fieldRd w) (fieldRs1 w) (fieldRs2 w)⟩,
  ⟨.both, 0xfe00707f, 0x00006033, fun w => .or (fieldRd w) (fieldRs1 w) (fieldRs2 w)⟩,
  ⟨.both, 0xfe00707f, 0x00007033, fun w => .and (fieldRd w) (fieldRs1 w) (fieldRs2 w)⟩,
  ⟨.both, 0xf00fffff, 0x0000000f, fun w => .fence (fieldPred w) (fieldSucc w)⟩,
  ⟨.both, 0xffffffff, 0x0000100f, fun _ => .fenceI⟩]

/-- The rows of RV64I, the 64-bit additions to the base (41_rv64i.md). -/
def rowsRv64i : List Row := [
  ⟨.only64, 0x0000707f, 0x00006003, fun w => .lwu (fieldRd w) (fieldRs1 w) (immI w)⟩,
  ⟨.only64, 0x0000707f, 0x00003003, fun w => .ld (fieldRd w) (fieldRs1 w) (immI w)⟩,
  ⟨.only64, 0x0000707f, 0x00003023, fun w => .sd (fieldRs2 w) (fieldRs1 w) (immS w)⟩,
  ⟨.only64, 0xfc00707f, 0x00001013, fun w => .slli64 (fieldRd w) (fieldRs1 w) (shamt6 w)⟩,
  ⟨.only64, 0xfc00707f, 0x00005013, fun w => .srli64 (fieldRd w) (fieldRs1 w) (shamt6 w)⟩,
  ⟨.only64, 0xfc00707f, 0x40005013, fun w => .srai64 (fieldRd w) (fieldRs1 w) (shamt6 w)⟩,
  ⟨.only64, 0x0000707f, 0x0000001b, fun w => .addiw (fieldRd w) (fieldRs1 w) (immI w)⟩,
  ⟨.only64, 0xfe00707f, 0x0000101b, fun w => .slliw (fieldRd w) (fieldRs1 w) (shamt5 w)⟩,
  ⟨.only64, 0xfe00707f, 0x0000501b, fun w => .srliw (fieldRd w) (fieldRs1 w) (shamt5 w)⟩,
  ⟨.only64, 0xfe00707f, 0x4000501b, fun w => .sraiw (fieldRd w) (fieldRs1 w) (shamt5 w)⟩,
  ⟨.only64, 0xfe00707f, 0x0000003b, fun w => .addw (fieldRd w) (fieldRs1 w) (fieldRs2 w)⟩,
  ⟨.only64, 0xfe00707f, 0x4000003b, fun w => .subw (fieldRd w) (fieldRs1 w) (fieldRs2 w)⟩,
  ⟨.only64, 0xfe00707f, 0x0000103b, fun w => .sllw (fieldRd w) (fieldRs1 w) (fieldRs2 w)⟩,
  ⟨.only64, 0xfe00707f, 0x0000503b, fun w => .srlw (fieldRd w) (fieldRs1 w) (fieldRs2 w)⟩,
  ⟨.only64, 0xfe00707f, 0x4000503b, fun w => .sraw (fieldRd w) (fieldRs1 w) (fieldRs2 w)⟩]

/-- The rows of RV32M, multiply and divide (42_rv32m.md). -/
def rowsRv32m : List Row := [
  ⟨.both, 0xfe00707f, 0x02000033, fun w => .mul (fieldRd w) (fieldRs1 w) (fieldRs2 w)⟩,
  ⟨.both, 0xfe00707f, 0x02001033, fun w => .mulh (fieldRd w) (fieldRs1 w) (fieldRs2 w)⟩,
  ⟨.both, 0xfe00707f, 0x02002033, fun w => .mulhsu (fieldRd w) (fieldRs1 w) (fieldRs2 w)⟩,
  ⟨.both, 0xfe00707f, 0x02003033, fun w => .mulhu (fieldRd w) (fieldRs1 w) (fieldRs2 w)⟩,
  ⟨.both, 0xfe00707f, 0x02004033, fun w => .div (fieldRd w) (fieldRs1 w) (fieldRs2 w)⟩,
  ⟨.both, 0xfe00707f, 0x02005033, fun w => .divu (fieldRd w) (fieldRs1 w) (fieldRs2 w)⟩,
  ⟨.both, 0xfe00707f, 0x02006033, fun w => .rem (fieldRd w) (fieldRs1 w) (fieldRs2 w)⟩,
  ⟨.both, 0xfe00707f, 0x02007033, fun w => .remu (fieldRd w) (fieldRs1 w) (fieldRs2 w)⟩]

/-- The rows of RV64M, word multiply and divide (43_rv64m.md). -/
def rowsRv64m : List Row := [
  ⟨.only64, 0xfe00707f, 0x0200003b, fun w => .mulw (fieldRd w) (fieldRs1 w) (fieldRs2 w)⟩,
  ⟨.only64, 0xfe00707f, 0x0200403b, fun w => .divw (fieldRd w) (fieldRs1 w) (fieldRs2 w)⟩,
  ⟨.only64, 0xfe00707f, 0x0200503b, fun w => .divuw (fieldRd w) (fieldRs1 w) (fieldRs2 w)⟩,
  ⟨.only64, 0xfe00707f, 0x0200603b, fun w => .remw (fieldRd w) (fieldRs1 w) (fieldRs2 w)⟩,
  ⟨.only64, 0xfe00707f, 0x0200703b, fun w => .remuw (fieldRd w) (fieldRs1 w) (fieldRs2 w)⟩]

/-- The rows of RV32A, atomic word instructions (44_rv32a.md). -/
def rowsRv32a : List Row := [
  ⟨.both, 0xf9f0707f, 0x1000202f, fun w => .lrW (fieldRd w) (fieldRs1 w) (fieldAq w) (fieldRl w)⟩,
  ⟨.both, 0xf800707f, 0x1800202f, fun w => .scW (fieldRd w) (fieldRs2 w) (fieldRs1 w) (fieldAq w) (fieldRl w)⟩,
  ⟨.both, 0xf800707f, 0x0800202f, fun w => .amoswapW (fieldRd w) (fieldRs2 w) (fieldRs1 w) (fieldAq w) (fieldRl w)⟩,
  ⟨.both, 0xf800707f, 0x0000202f, fun w => .amoaddW (fieldRd w) (fieldRs2 w) (fieldRs1 w) (fieldAq w) (fieldRl w)⟩,
  ⟨.both, 0xf800707f, 0x2000202f, fun w => .amoxorW (fieldRd w) (fieldRs2 w) (fieldRs1 w) (fieldAq w) (fieldRl w)⟩,
  ⟨.both, 0xf800707f, 0x4000202f, fun w => .amoorW (fieldRd w) (fieldRs2 w) (fieldRs1 w) (fieldAq w) (fieldRl w)⟩,
  ⟨.both, 0xf800707f, 0x6000202f, fun w => .amoandW (fieldRd w) (fieldRs2 w) (fieldRs1 w) (fieldAq w) (fieldRl w)⟩,
  ⟨.both, 0xf800707f, 0x8000202f, fun w => .amominW (fieldRd w) (fieldRs2 w) (fieldRs1 w) (fieldAq w) (fieldRl w)⟩,
  ⟨.both, 0xf800707f, 0xa000202f, fun w => .amomaxW (fieldRd w) (fieldRs2 w) (fieldRs1 w) (fieldAq w) (fieldRl w)⟩,
  ⟨.both, 0xf800707f, 0xc000202f, fun w => .amominuW (fieldRd w) (fieldRs2 w) (fieldRs1 w) (fieldAq w) (fieldRl w)⟩,
  ⟨.both, 0xf800707f, 0xe000202f, fun w => .amomaxuW (fieldRd w) (fieldRs2 w) (fieldRs1 w) (fieldAq w) (fieldRl w)⟩]

/-- The rows of RV64A, atomic doubleword instructions (45_rv64a.md). -/
def rowsRv64a : List Row := [
  ⟨.only64, 0xf9f0707f, 0x1000302f, fun w => .lrD (fieldRd w) (fieldRs1 w) (fieldAq w) (fieldRl w)⟩,
  ⟨.only64, 0xf800707f, 0x1800302f, fun w => .scD (fieldRd w) (fieldRs2 w) (fieldRs1 w) (fieldAq w) (fieldRl w)⟩,
  ⟨.only64, 0xf800707f, 0x0800302f, fun w => .amoswapD (fieldRd w) (fieldRs2 w) (fieldRs1 w) (fieldAq w) (fieldRl w)⟩,
  ⟨.only64, 0xf800707f, 0x0000302f, fun w => .amoaddD (fieldRd w) (fieldRs2 w) (fieldRs1 w) (fieldAq w) (fieldRl w)⟩,
  ⟨.only64, 0xf800707f, 0x2000302f, fun w => .amoxorD (fieldRd w) (fieldRs2 w) (fieldRs1 w) (fieldAq w) (fieldRl w)⟩,
  ⟨.only64, 0xf800707f, 0x4000302f, fun w => .amoorD (fieldRd w) (fieldRs2 w) (fieldRs1 w) (fieldAq w) (fieldRl w)⟩,
  ⟨.only64, 0xf800707f, 0x6000302f, fun w => .amoandD (fieldRd w) (fieldRs2 w) (fieldRs1 w) (fieldAq w) (fieldRl w)⟩,
  ⟨.only64, 0xf800707f, 0x8000302f, fun w => .amominD (fieldRd w) (fieldRs2 w) (fieldRs1 w) (fieldAq w) (fieldRl w)⟩,
  ⟨.only64, 0xf800707f, 0xa000302f, fun w => .amomaxD (fieldRd w) (fieldRs2 w) (fieldRs1 w) (fieldAq w) (fieldRl w)⟩,
  ⟨.only64, 0xf800707f, 0xc000302f, fun w => .amominuD (fieldRd w) (fieldRs2 w) (fieldRs1 w) (fieldAq w) (fieldRl w)⟩,
  ⟨.only64, 0xf800707f, 0xe000302f, fun w => .amomaxuD (fieldRd w) (fieldRs2 w) (fieldRs1 w) (fieldAq w) (fieldRl w)⟩]

/-- The rows of RV32F, single precision (46_rv32f.md). -/
def rowsRv32f : List Row := [
  ⟨.both, 0x0000707f, 0x00002007, fun w => .flw (fieldRd w) (fieldRs1 w) (immI w)⟩,
  ⟨.both, 0x0000707f, 0x00002027, fun w => .fsw (fieldRs2 w) (fieldRs1 w) (immS w)⟩,
  ⟨.both, 0x0600007f, 0x00000043, fun w => .fmaddS (fieldRd w) (fieldRs1 w) (fieldRs2 w) (fieldRs3 w) (fieldRm w)⟩,
  ⟨.both, 0x0600007f, 0x00000047, fun w => .fmsubS (fieldRd w) (fieldRs1 w) (fieldRs2 w) (fieldRs3 w) (fieldRm w)⟩,
  ⟨.both, 0x0600007f, 0x0000004b, fun w => .fnmsubS (fieldRd w) (fieldRs1 w) (fieldRs2 w) (fieldRs3 w) (fieldRm w)⟩,
  ⟨.both, 0x0600007f, 0x0000004f, fun w => .fnmaddS (fieldRd w) (fieldRs1 w) (fieldRs2 w) (fieldRs3 w) (fieldRm w)⟩,
  ⟨.both, 0xfe00007f, 0x00000053, fun w => .faddS (fieldRd w) (fieldRs1 w) (fieldRs2 w) (fieldRm w)⟩,
  ⟨.both, 0xfe00007f, 0x08000053, fun w => .fsubS (fieldRd w) (fieldRs1 w) (fieldRs2 w) (fieldRm w)⟩,
  ⟨.both, 0xfe00007f, 0x10000053, fun w => .fmulS (fieldRd w) (fieldRs1 w) (fieldRs2 w) (fieldRm w)⟩,
  ⟨.both, 0xfe00007f, 0x18000053, fun w => .fdivS (fieldRd w) (fieldRs1 w) (fieldRs2 w) (fieldRm w)⟩,
  ⟨.both, 0xfe00707f, 0x20000053, fun w => .fsgnjS (fieldRd w) (fieldRs1 w) (fieldRs2 w)⟩,
  ⟨.both, 0xfe00707f, 0x20001053, fun w => .fsgnjnS (fieldRd w) (fieldRs1 w) (fieldRs2 w)⟩,
  ⟨.both, 0xfe00707f, 0x20002053, fun w => .fsgnjxS (fieldRd w) (fieldRs1 w) (fieldRs2 w)⟩,
  ⟨.both, 0xfe00707f, 0x28000053, fun w => .fminS (fieldRd w) (fieldRs1 w) (fieldRs2 w)⟩,
  ⟨.both, 0xfe00707f, 0x28001053, fun w => .fmaxS (fieldRd w) (fieldRs1 w) (fieldRs2 w)⟩,
  ⟨.both, 0xfff0007f, 0x58000053, fun w => .fsqrtS (fieldRd w) (fieldRs1 w) (fieldRm w)⟩,
  ⟨.both, 0xfe00707f, 0xa0000053, fun w => .fleS (fieldRd w) (fieldRs1 w) (fieldRs2 w)⟩,
  ⟨.both, 0xfe00707f, 0xa0001053, fun w => .fltS (fieldRd w) (fieldRs1 w) (fieldRs2 w)⟩,
  ⟨.both, 0xfe00707f, 0xa0002053, fun w => .feqS (fieldRd w) (fieldRs1 w) (fieldRs2 w)⟩,
  ⟨.both, 0xfff0007f, 0xc0000053, fun w => .fcvtWS (fieldRd w) (fieldRs1 w) (fieldRm w)⟩,
  ⟨.both, 0xfff0007f, 0xc0100053, fun w => .fcvtWuS (fieldRd w) (fieldRs1 w) (fieldRm w)⟩,
  ⟨.both, 0xfff0007f, 0xd0000053, fun w => .fcvtSW (fieldRd w) (fieldRs1 w) (fieldRm w)⟩,
  ⟨.both, 0xfff0007f, 0xd0100053, fun w => .fcvtSWu (fieldRd w) (fieldRs1 w) (fieldRm w)⟩,
  ⟨.both, 0xfff0707f, 0xe0000053, fun w => .fmvXS (fieldRd w) (fieldRs1 w)⟩,
  ⟨.both, 0xfff0707f, 0xe0001053, fun w => .fclassS (fieldRd w) (fieldRs1 w)⟩,
  ⟨.both, 0xfff0707f, 0xf0000053, fun w => .fmvSX (fieldRd w) (fieldRs1 w)⟩]

/-- The rows of RV64F, single precision and 64-bit integers (47_rv64f.md). -/
def rowsRv64f : List Row := [
  ⟨.only64, 0xfff0007f, 0xc0200053, fun w => .fcvtLS (fieldRd w) (fieldRs1 w) (fieldRm w)⟩,
  ⟨.only64, 0xfff0007f, 0xc0300053, fun w => .fcvtLuS (fieldRd w) (fieldRs1 w) (fieldRm w)⟩,
  ⟨.only64, 0xfff0007f, 0xd0200053, fun w => .fcvtSL (fieldRd w) (fieldRs1 w) (fieldRm w)⟩,
  ⟨.only64, 0xfff0007f, 0xd0300053, fun w => .fcvtSLu (fieldRd w) (fieldRs1 w) (fieldRm w)⟩]

/-- The rows of RV32D, double precision (48_rv32d.md). -/
def rowsRv32d : List Row := [
  ⟨.both, 0x0000707f, 0x00003007, fun w => .fld (fieldRd w) (fieldRs1 w) (immI w)⟩,
  ⟨.both, 0x0000707f, 0x00003027, fun w => .fsd (fieldRs2 w) (fieldRs1 w) (immS w)⟩,
  ⟨.both, 0x0600007f, 0x02000043, fun w => .fmaddD (fieldRd w) (fieldRs1 w) (fieldRs2 w) (fieldRs3 w) (fieldRm w)⟩,
  ⟨.both, 0x0600007f, 0x02000047, fun w => .fmsubD (fieldRd w) (fieldRs1 w) (fieldRs2 w) (fieldRs3 w) (fieldRm w)⟩,
  ⟨.both, 0x0600007f, 0x0200004b, fun w => .fnmsubD (fieldRd w) (fieldRs1 w) (fieldRs2 w) (fieldRs3 w) (fieldRm w)⟩,
  ⟨.both, 0x0600007f, 0x0200004f, fun w => .fnmaddD (fieldRd w) (fieldRs1 w) (fieldRs2 w) (fieldRs3 w) (fieldRm w)⟩,
  ⟨.both, 0xfe00007f, 0x02000053, fun w => .faddD (fieldRd w) (fieldRs1 w) (fieldRs2 w) (fieldRm w)⟩,
  ⟨.both, 0xfe00007f, 0x0a000053, fun w => .fsubD (fieldRd w) (fieldRs1 w) (fieldRs2 w) (fieldRm w)⟩,
  ⟨.both, 0xfe00007f, 0x12000053, fun w => .fmulD (fieldRd w) (fieldRs1 w) (fieldRs2 w) (fieldRm w)⟩,
  ⟨.both, 0xfe00007f, 0x1a000053, fun w => .fdivD (fieldRd w) (fieldRs1 w) (fieldRs2 w) (fieldRm w)⟩,
  ⟨.both, 0xfe00707f, 0x22000053, fun w => .fsgnjD (fieldRd w) (fieldRs1 w) (fieldRs2 w)⟩,
  ⟨.both, 0xfe00707f, 0x22001053, fun w => .fsgnjnD (fieldRd w) (fieldRs1 w) (fieldRs2 w)⟩,
  ⟨.both, 0xfe00707f, 0x22002053, fun w => .fsgnjxD (fieldRd w) (fieldRs1 w) (fieldRs2 w)⟩,
  ⟨.both, 0xfe00707f, 0x2a000053, fun w => .fminD (fieldRd w) (fieldRs1 w) (fieldRs2 w)⟩,
  ⟨.both, 0xfe00707f, 0x2a001053, fun w => .fmaxD (fieldRd w) (fieldRs1 w) (fieldRs2 w)⟩,
  ⟨.both, 0xfff0007f, 0x5a000053, fun w => .fsqrtD (fieldRd w) (fieldRs1 w) (fieldRm w)⟩,
  ⟨.both, 0xfe00707f, 0xa2000053, fun w => .fleD (fieldRd w) (fieldRs1 w) (fieldRs2 w)⟩,
  ⟨.both, 0xfe00707f, 0xa2001053, fun w => .fltD (fieldRd w) (fieldRs1 w) (fieldRs2 w)⟩,
  ⟨.both, 0xfe00707f, 0xa2002053, fun w => .feqD (fieldRd w) (fieldRs1 w) (fieldRs2 w)⟩,
  ⟨.both, 0xfff0007f, 0xc2000053, fun w => .fcvtWD (fieldRd w) (fieldRs1 w) (fieldRm w)⟩,
  ⟨.both, 0xfff0007f, 0xc2100053, fun w => .fcvtWuD (fieldRd w) (fieldRs1 w) (fieldRm w)⟩,
  ⟨.both, 0xfff0007f, 0xd2000053, fun w => .fcvtDW (fieldRd w) (fieldRs1 w) (fieldRm w)⟩,
  ⟨.both, 0xfff0007f, 0xd2100053, fun w => .fcvtDWu (fieldRd w) (fieldRs1 w) (fieldRm w)⟩,
  ⟨.both, 0xfff0707f, 0xe2001053, fun w => .fclassD (fieldRd w) (fieldRs1 w)⟩]

/-- The rows of RV64D, double precision and 64-bit integers (49_rv64d.md). -/
def rowsRv64d : List Row := [
  ⟨.only64, 0xfff0007f, 0xc2200053, fun w => .fcvtLD (fieldRd w) (fieldRs1 w) (fieldRm w)⟩,
  ⟨.only64, 0xfff0007f, 0xc2300053, fun w => .fcvtLuD (fieldRd w) (fieldRs1 w) (fieldRm w)⟩,
  ⟨.only64, 0xfff0007f, 0xd2200053, fun w => .fcvtDL (fieldRd w) (fieldRs1 w) (fieldRm w)⟩,
  ⟨.only64, 0xfff0007f, 0xd2300053, fun w => .fcvtDLu (fieldRd w) (fieldRs1 w) (fieldRm w)⟩,
  ⟨.only64, 0xfff0707f, 0xe2000053, fun w => .fmvXD (fieldRd w) (fieldRs1 w)⟩,
  ⟨.only64, 0xfff0707f, 0xf2000053, fun w => .fmvDX (fieldRd w) (fieldRs1 w)⟩]

/-- The opcode table: the 149 rows of R123 in the spec's order. -/
def opcodeTable : List Row :=
  rowsRv32i ++ rowsRv64i ++ rowsRv32m ++ rowsRv64m ++ rowsRv32a ++
  rowsRv64a ++ rowsRv32f ++ rowsRv64f ++ rowsRv32d ++ rowsRv64d

/-- `r.isRowOf xl w`: row `r` exists at width `xl` and the word `w` matches it (R110). -/
def Row.isRowOf (r : Row) (xl : XLen) (w : Word) : Bool := r.xlens.admits xl && (w &&& r.mask == r.value)

/-- Decoding of a word at width `xl` (R110): the instruction of the row that matches, or nothing, in which case the word
is illegal (R111). -/
def decode (xl : XLen) (w : Word) : Option Instr := (opcodeTable.find? (·.isRowOf xl w)).map (·.build w)

/-! ### Bytes (R51) -/

/-- The word whose bytes, from the lowest address up, are the arguments: little-endian (R51). -/
def wordOfBytes (b0 b1 b2 b3 : Byte) : Word := b3 ++ b2 ++ b1 ++ b0

/-- The four bytes of a word from the lowest address up (R51). -/
def bytesOfWord (w : Word) : List Byte :=
  [w.extractLsb' 0 8, w.extractLsb' 8 8, w.extractLsb' 16 8, w.extractLsb' 24 8]

/-- Why some bytes do not decode. -/
inductive DecodeError where
  /-- Fewer than the four bytes every instruction has (R90). -/
  | truncated
  /-- The word matches no row at this XLEN (R111). -/
  | noRow (w : Word)
deriving DecidableEq, Repr

/-- Decoding of a byte string: the instruction its first four bytes spell and the bytes after it, or the reason why they
spell none. Total on any bytes. -/
def decodeBytes (xl : XLen) : List Byte → Except DecodeError (Instr × List Byte)
  | b0 :: b1 :: b2 :: b3 :: rest =>
    match decode xl (wordOfBytes b0 b1 b2 b3) with
    | some i => .ok (i, rest)
    | none => .error (.noRow (wordOfBytes b0 b1 b2 b3))
  | _ => .error .truncated

/-! ### The encoder, from the formats (R92 to R102) -/

/-- R format (R92) and R-rm format, whose funct3 is `rm` (R102). -/
def encR (funct7 : BitVec 7) (rs2 rs1 : BitVec 5) (funct3 : BitVec 3) (rd : BitVec 5) (opcode : BitVec 7) : Word :=
  funct7 ++ rs2 ++ rs1 ++ funct3 ++ rd ++ opcode
/-- I format (R93). -/
def encI (imm : BitVec 12) (rs1 : BitVec 5) (funct3 : BitVec 3) (rd : BitVec 5) (opcode : BitVec 7) : Word :=
  imm ++ rs1 ++ funct3 ++ rd ++ opcode
/-- S format (R94, R104). -/
def encS (imm : BitVec 12) (rs2 rs1 : BitVec 5) (funct3 : BitVec 3) (opcode : BitVec 7) : Word :=
  imm.extractLsb' 5 7 ++ rs2 ++ rs1 ++ funct3 ++ imm.extractLsb' 0 5 ++ opcode
/-- B format (R95, R105). -/
def encB (off : BitVec 13) (rs2 rs1 : BitVec 5) (funct3 : BitVec 3) (opcode : BitVec 7) : Word :=
  off.extractLsb' 12 1 ++ off.extractLsb' 5 6 ++ rs2 ++ rs1 ++ funct3 ++ off.extractLsb' 1 4 ++ off.extractLsb' 11 1 ++
    opcode
/-- U format (R96). -/
def encU (imm : BitVec 20) (rd : BitVec 5) (opcode : BitVec 7) : Word := imm ++ rd ++ opcode
/-- J format (R97, R107). -/
def encJ (off : BitVec 21) (rd : BitVec 5) (opcode : BitVec 7) : Word :=
  off.extractLsb' 20 1 ++ off.extractLsb' 1 10 ++ off.extractLsb' 11 1 ++ off.extractLsb' 12 8 ++ rd ++ opcode
/-- I-shift5 format (R98). -/
def encShift5 (funct7 : BitVec 7) (shamt rs1 : BitVec 5) (funct3 : BitVec 3) (rd : BitVec 5) (opcode : BitVec 7) :
    Word :=
  funct7 ++ shamt ++ rs1 ++ funct3 ++ rd ++ opcode
/-- I-shift6 format (R98). -/
def encShift6 (funct6 : BitVec 6) (shamt : BitVec 6) (rs1 : BitVec 5) (funct3 : BitVec 3) (rd : BitVec 5)
    (opcode : BitVec 7) : Word :=
  funct6 ++ shamt ++ rs1 ++ funct3 ++ rd ++ opcode
/-- R4 format (R99). -/
def encR4 (rs3 : BitVec 5) (fmt : BitVec 2) (rs2 rs1 : BitVec 5) (rm : Rm) (rd : BitVec 5) (opcode : BitVec 7) : Word :=
  rs3 ++ fmt ++ rs2 ++ rs1 ++ rm ++ rd ++ opcode
/-- AMO format (R100). -/
def encAmo (funct5 : BitVec 5) (aq rl : Bool) (rs2 rs1 : BitVec 5) (funct3 : BitVec 3) (rd : BitVec 5) : Word :=
  funct5 ++ BitVec.ofBool aq ++ BitVec.ofBool rl ++ rs2 ++ rs1 ++ funct3 ++ rd ++ (0b0101111 : BitVec 7)
/-- FENCE format (R101). -/
def encFence (pred succ : BitVec 4) (funct3 : BitVec 3) : Word :=
  (0 : BitVec 4) ++ pred ++ succ ++ (0 : BitVec 5) ++ funct3 ++ (0 : BitVec 5) ++ (0b0001111 : BitVec 7)

/-- The word of an instruction: the `Encoding` sentence of its rule. -/
def encode : Instr → Word
  | .lui rd imm => encU imm rd 0b0110111
  | .auipc rd imm => encU imm rd 0b0010111
  | .jal rd off => encJ off rd 0b1101111
  | .jalr rd rs1 imm => encI imm rs1 0b000 rd 0b1100111
  | .beq rs1 rs2 off => encB off rs2 rs1 0b000 0b1100011
  | .bne rs1 rs2 off => encB off rs2 rs1 0b001 0b1100011
  | .blt rs1 rs2 off => encB off rs2 rs1 0b100 0b1100011
  | .bge rs1 rs2 off => encB off rs2 rs1 0b101 0b1100011
  | .bltu rs1 rs2 off => encB off rs2 rs1 0b110 0b1100011
  | .bgeu rs1 rs2 off => encB off rs2 rs1 0b111 0b1100011
  | .lb rd rs1 imm => encI imm rs1 0b000 rd 0b0000011
  | .lh rd rs1 imm => encI imm rs1 0b001 rd 0b0000011
  | .lw rd rs1 imm => encI imm rs1 0b010 rd 0b0000011
  | .lbu rd rs1 imm => encI imm rs1 0b100 rd 0b0000011
  | .lhu rd rs1 imm => encI imm rs1 0b101 rd 0b0000011
  | .sb rs2 rs1 imm => encS imm rs2 rs1 0b000 0b0100011
  | .sh rs2 rs1 imm => encS imm rs2 rs1 0b001 0b0100011
  | .sw rs2 rs1 imm => encS imm rs2 rs1 0b010 0b0100011
  | .addi rd rs1 imm => encI imm rs1 0b000 rd 0b0010011
  | .slti rd rs1 imm => encI imm rs1 0b010 rd 0b0010011
  | .sltiu rd rs1 imm => encI imm rs1 0b011 rd 0b0010011
  | .xori rd rs1 imm => encI imm rs1 0b100 rd 0b0010011
  | .ori rd rs1 imm => encI imm rs1 0b110 rd 0b0010011
  | .andi rd rs1 imm => encI imm rs1 0b111 rd 0b0010011
  | .slli32 rd rs1 shamt => encShift5 0b0000000 shamt rs1 0b001 rd 0b0010011
  | .srli32 rd rs1 shamt => encShift5 0b0000000 shamt rs1 0b101 rd 0b0010011
  | .srai32 rd rs1 shamt => encShift5 0b0100000 shamt rs1 0b101 rd 0b0010011
  | .add rd rs1 rs2 => encR 0b0000000 rs2 rs1 0b000 rd 0b0110011
  | .sub rd rs1 rs2 => encR 0b0100000 rs2 rs1 0b000 rd 0b0110011
  | .sll rd rs1 rs2 => encR 0b0000000 rs2 rs1 0b001 rd 0b0110011
  | .slt rd rs1 rs2 => encR 0b0000000 rs2 rs1 0b010 rd 0b0110011
  | .sltu rd rs1 rs2 => encR 0b0000000 rs2 rs1 0b011 rd 0b0110011
  | .xor rd rs1 rs2 => encR 0b0000000 rs2 rs1 0b100 rd 0b0110011
  | .srl rd rs1 rs2 => encR 0b0000000 rs2 rs1 0b101 rd 0b0110011
  | .sra rd rs1 rs2 => encR 0b0100000 rs2 rs1 0b101 rd 0b0110011
  | .or rd rs1 rs2 => encR 0b0000000 rs2 rs1 0b110 rd 0b0110011
  | .and rd rs1 rs2 => encR 0b0000000 rs2 rs1 0b111 rd 0b0110011
  | .fence pred succ => encFence pred succ 0b000
  | .fenceI => encFence 0 0 0b001
  | .lwu rd rs1 imm => encI imm rs1 0b110 rd 0b0000011
  | .ld rd rs1 imm => encI imm rs1 0b011 rd 0b0000011
  | .sd rs2 rs1 imm => encS imm rs2 rs1 0b011 0b0100011
  | .slli64 rd rs1 shamt => encShift6 0b000000 shamt rs1 0b001 rd 0b0010011
  | .srli64 rd rs1 shamt => encShift6 0b000000 shamt rs1 0b101 rd 0b0010011
  | .srai64 rd rs1 shamt => encShift6 0b010000 shamt rs1 0b101 rd 0b0010011
  | .addiw rd rs1 imm => encI imm rs1 0b000 rd 0b0011011
  | .slliw rd rs1 shamt => encShift5 0b0000000 shamt rs1 0b001 rd 0b0011011
  | .srliw rd rs1 shamt => encShift5 0b0000000 shamt rs1 0b101 rd 0b0011011
  | .sraiw rd rs1 shamt => encShift5 0b0100000 shamt rs1 0b101 rd 0b0011011
  | .addw rd rs1 rs2 => encR 0b0000000 rs2 rs1 0b000 rd 0b0111011
  | .subw rd rs1 rs2 => encR 0b0100000 rs2 rs1 0b000 rd 0b0111011
  | .sllw rd rs1 rs2 => encR 0b0000000 rs2 rs1 0b001 rd 0b0111011
  | .srlw rd rs1 rs2 => encR 0b0000000 rs2 rs1 0b101 rd 0b0111011
  | .sraw rd rs1 rs2 => encR 0b0100000 rs2 rs1 0b101 rd 0b0111011
  | .mul rd rs1 rs2 => encR 0b0000001 rs2 rs1 0b000 rd 0b0110011
  | .mulh rd rs1 rs2 => encR 0b0000001 rs2 rs1 0b001 rd 0b0110011
  | .mulhsu rd rs1 rs2 => encR 0b0000001 rs2 rs1 0b010 rd 0b0110011
  | .mulhu rd rs1 rs2 => encR 0b0000001 rs2 rs1 0b011 rd 0b0110011
  | .div rd rs1 rs2 => encR 0b0000001 rs2 rs1 0b100 rd 0b0110011
  | .divu rd rs1 rs2 => encR 0b0000001 rs2 rs1 0b101 rd 0b0110011
  | .rem rd rs1 rs2 => encR 0b0000001 rs2 rs1 0b110 rd 0b0110011
  | .remu rd rs1 rs2 => encR 0b0000001 rs2 rs1 0b111 rd 0b0110011
  | .mulw rd rs1 rs2 => encR 0b0000001 rs2 rs1 0b000 rd 0b0111011
  | .divw rd rs1 rs2 => encR 0b0000001 rs2 rs1 0b100 rd 0b0111011
  | .divuw rd rs1 rs2 => encR 0b0000001 rs2 rs1 0b101 rd 0b0111011
  | .remw rd rs1 rs2 => encR 0b0000001 rs2 rs1 0b110 rd 0b0111011
  | .remuw rd rs1 rs2 => encR 0b0000001 rs2 rs1 0b111 rd 0b0111011
  | .lrW rd rs1 aq rl => encAmo 0b00010 aq rl 0 rs1 0b010 rd
  | .scW rd rs2 rs1 aq rl => encAmo 0b00011 aq rl rs2 rs1 0b010 rd
  | .amoswapW rd rs2 rs1 aq rl => encAmo 0b00001 aq rl rs2 rs1 0b010 rd
  | .amoaddW rd rs2 rs1 aq rl => encAmo 0b00000 aq rl rs2 rs1 0b010 rd
  | .amoxorW rd rs2 rs1 aq rl => encAmo 0b00100 aq rl rs2 rs1 0b010 rd
  | .amoorW rd rs2 rs1 aq rl => encAmo 0b01000 aq rl rs2 rs1 0b010 rd
  | .amoandW rd rs2 rs1 aq rl => encAmo 0b01100 aq rl rs2 rs1 0b010 rd
  | .amominW rd rs2 rs1 aq rl => encAmo 0b10000 aq rl rs2 rs1 0b010 rd
  | .amomaxW rd rs2 rs1 aq rl => encAmo 0b10100 aq rl rs2 rs1 0b010 rd
  | .amominuW rd rs2 rs1 aq rl => encAmo 0b11000 aq rl rs2 rs1 0b010 rd
  | .amomaxuW rd rs2 rs1 aq rl => encAmo 0b11100 aq rl rs2 rs1 0b010 rd
  | .lrD rd rs1 aq rl => encAmo 0b00010 aq rl 0 rs1 0b011 rd
  | .scD rd rs2 rs1 aq rl => encAmo 0b00011 aq rl rs2 rs1 0b011 rd
  | .amoswapD rd rs2 rs1 aq rl => encAmo 0b00001 aq rl rs2 rs1 0b011 rd
  | .amoaddD rd rs2 rs1 aq rl => encAmo 0b00000 aq rl rs2 rs1 0b011 rd
  | .amoxorD rd rs2 rs1 aq rl => encAmo 0b00100 aq rl rs2 rs1 0b011 rd
  | .amoorD rd rs2 rs1 aq rl => encAmo 0b01000 aq rl rs2 rs1 0b011 rd
  | .amoandD rd rs2 rs1 aq rl => encAmo 0b01100 aq rl rs2 rs1 0b011 rd
  | .amominD rd rs2 rs1 aq rl => encAmo 0b10000 aq rl rs2 rs1 0b011 rd
  | .amomaxD rd rs2 rs1 aq rl => encAmo 0b10100 aq rl rs2 rs1 0b011 rd
  | .amominuD rd rs2 rs1 aq rl => encAmo 0b11000 aq rl rs2 rs1 0b011 rd
  | .amomaxuD rd rs2 rs1 aq rl => encAmo 0b11100 aq rl rs2 rs1 0b011 rd
  | .flw rd rs1 imm => encI imm rs1 0b010 rd 0b0000111
  | .fsw rs2 rs1 imm => encS imm rs2 rs1 0b010 0b0100111
  | .fmaddS rd rs1 rs2 rs3 rm => encR4 rs3 0b00 rs2 rs1 rm rd 0b1000011
  | .fmsubS rd rs1 rs2 rs3 rm => encR4 rs3 0b00 rs2 rs1 rm rd 0b1000111
  | .fnmsubS rd rs1 rs2 rs3 rm => encR4 rs3 0b00 rs2 rs1 rm rd 0b1001011
  | .fnmaddS rd rs1 rs2 rs3 rm => encR4 rs3 0b00 rs2 rs1 rm rd 0b1001111
  | .faddS rd rs1 rs2 rm => encR 0b0000000 rs2 rs1 rm rd 0b1010011
  | .fsubS rd rs1 rs2 rm => encR 0b0000100 rs2 rs1 rm rd 0b1010011
  | .fmulS rd rs1 rs2 rm => encR 0b0001000 rs2 rs1 rm rd 0b1010011
  | .fdivS rd rs1 rs2 rm => encR 0b0001100 rs2 rs1 rm rd 0b1010011
  | .fsgnjS rd rs1 rs2 => encR 0b0010000 rs2 rs1 0b000 rd 0b1010011
  | .fsgnjnS rd rs1 rs2 => encR 0b0010000 rs2 rs1 0b001 rd 0b1010011
  | .fsgnjxS rd rs1 rs2 => encR 0b0010000 rs2 rs1 0b010 rd 0b1010011
  | .fminS rd rs1 rs2 => encR 0b0010100 rs2 rs1 0b000 rd 0b1010011
  | .fmaxS rd rs1 rs2 => encR 0b0010100 rs2 rs1 0b001 rd 0b1010011
  | .fsqrtS rd rs1 rm => encR 0b0101100 0b00000 rs1 rm rd 0b1010011
  | .fleS rd rs1 rs2 => encR 0b1010000 rs2 rs1 0b000 rd 0b1010011
  | .fltS rd rs1 rs2 => encR 0b1010000 rs2 rs1 0b001 rd 0b1010011
  | .feqS rd rs1 rs2 => encR 0b1010000 rs2 rs1 0b010 rd 0b1010011
  | .fcvtWS rd rs1 rm => encR 0b1100000 0b00000 rs1 rm rd 0b1010011
  | .fcvtWuS rd rs1 rm => encR 0b1100000 0b00001 rs1 rm rd 0b1010011
  | .fcvtSW rd rs1 rm => encR 0b1101000 0b00000 rs1 rm rd 0b1010011
  | .fcvtSWu rd rs1 rm => encR 0b1101000 0b00001 rs1 rm rd 0b1010011
  | .fmvXS rd rs1 => encR 0b1110000 0b00000 rs1 0b000 rd 0b1010011
  | .fclassS rd rs1 => encR 0b1110000 0b00000 rs1 0b001 rd 0b1010011
  | .fmvSX rd rs1 => encR 0b1111000 0b00000 rs1 0b000 rd 0b1010011
  | .fcvtLS rd rs1 rm => encR 0b1100000 0b00010 rs1 rm rd 0b1010011
  | .fcvtLuS rd rs1 rm => encR 0b1100000 0b00011 rs1 rm rd 0b1010011
  | .fcvtSL rd rs1 rm => encR 0b1101000 0b00010 rs1 rm rd 0b1010011
  | .fcvtSLu rd rs1 rm => encR 0b1101000 0b00011 rs1 rm rd 0b1010011
  | .fld rd rs1 imm => encI imm rs1 0b011 rd 0b0000111
  | .fsd rs2 rs1 imm => encS imm rs2 rs1 0b011 0b0100111
  | .fmaddD rd rs1 rs2 rs3 rm => encR4 rs3 0b01 rs2 rs1 rm rd 0b1000011
  | .fmsubD rd rs1 rs2 rs3 rm => encR4 rs3 0b01 rs2 rs1 rm rd 0b1000111
  | .fnmsubD rd rs1 rs2 rs3 rm => encR4 rs3 0b01 rs2 rs1 rm rd 0b1001011
  | .fnmaddD rd rs1 rs2 rs3 rm => encR4 rs3 0b01 rs2 rs1 rm rd 0b1001111
  | .faddD rd rs1 rs2 rm => encR 0b0000001 rs2 rs1 rm rd 0b1010011
  | .fsubD rd rs1 rs2 rm => encR 0b0000101 rs2 rs1 rm rd 0b1010011
  | .fmulD rd rs1 rs2 rm => encR 0b0001001 rs2 rs1 rm rd 0b1010011
  | .fdivD rd rs1 rs2 rm => encR 0b0001101 rs2 rs1 rm rd 0b1010011
  | .fsgnjD rd rs1 rs2 => encR 0b0010001 rs2 rs1 0b000 rd 0b1010011
  | .fsgnjnD rd rs1 rs2 => encR 0b0010001 rs2 rs1 0b001 rd 0b1010011
  | .fsgnjxD rd rs1 rs2 => encR 0b0010001 rs2 rs1 0b010 rd 0b1010011
  | .fminD rd rs1 rs2 => encR 0b0010101 rs2 rs1 0b000 rd 0b1010011
  | .fmaxD rd rs1 rs2 => encR 0b0010101 rs2 rs1 0b001 rd 0b1010011
  | .fsqrtD rd rs1 rm => encR 0b0101101 0b00000 rs1 rm rd 0b1010011
  | .fleD rd rs1 rs2 => encR 0b1010001 rs2 rs1 0b000 rd 0b1010011
  | .fltD rd rs1 rs2 => encR 0b1010001 rs2 rs1 0b001 rd 0b1010011
  | .feqD rd rs1 rs2 => encR 0b1010001 rs2 rs1 0b010 rd 0b1010011
  | .fcvtWD rd rs1 rm => encR 0b1100001 0b00000 rs1 rm rd 0b1010011
  | .fcvtWuD rd rs1 rm => encR 0b1100001 0b00001 rs1 rm rd 0b1010011
  | .fcvtDW rd rs1 rm => encR 0b1101001 0b00000 rs1 rm rd 0b1010011
  | .fcvtDWu rd rs1 rm => encR 0b1101001 0b00001 rs1 rm rd 0b1010011
  | .fclassD rd rs1 => encR 0b1110001 0b00000 rs1 0b001 rd 0b1010011
  | .fcvtLD rd rs1 rm => encR 0b1100001 0b00010 rs1 rm rd 0b1010011
  | .fcvtLuD rd rs1 rm => encR 0b1100001 0b00011 rs1 rm rd 0b1010011
  | .fcvtDL rd rs1 rm => encR 0b1101001 0b00010 rs1 rm rd 0b1010011
  | .fcvtDLu rd rs1 rm => encR 0b1101001 0b00011 rs1 rm rd 0b1010011
  | .fmvXD rd rs1 => encR 0b1110001 0b00000 rs1 0b000 rd 0b1010011
  | .fmvDX rd rs1 => encR 0b1111001 0b00000 rs1 0b000 rd 0b1010011

/-! ### The opcode table's numbering of bits -/

/-- The instruction the decoder reads from an instruction of `nbits` bits `w`, bit 0 of `w` the least significant bit of
the word and every bit above `nbits` zero: its bytes are laid out as memory holds them (R51) and decoded with
XLEN = 64 (log entry 15). -/
def decodeTableWord (nbits w : Nat) : Option Instr :=
  match decodeBytes .rv64 (bytesOfWord (BitVec.ofNat 32 (w % 2 ^ nbits))) with
  | .ok (i, _) => some i
  | .error _ => none

end Sys2Proof
end

