-- ==== Sys2Proof/Config.lean ====
section
/-!
DEFINITION. The parameters of a run (00_scope.md section 4, R33: "not state but parameters of the run") and the free
values the spec leaves open.
-/
namespace Sys2Proof

/-- The open parameter MISALIGNED_DATA: what a misaligned plain load or store does (R54). -/
inductive MisalignedData where
  /-- It raises an address-misaligned exception (the default). -/
  | trap
  /-- It succeeds byte by byte. -/
  | emulate
deriving DecidableEq, Repr

/-- One byte range `[base, base + size)` of MEM_MAP (R58). -/
structure MemRange where
  /-- The lowest address of the range. -/
  base : Nat
  /-- The number of bytes of the range. -/
  size : Nat
deriving DecidableEq, Repr

/-- `r.contains a`: address `a` lies in the range (R58). -/
def MemRange.contains (r : MemRange) (a : Nat) : Bool :=
  decide (r.base ≤ a) && decide (a < r.base + r.size)

/-- The parameters fixed at launch that R33 lists; `NHARTS` is 1 in this model (log entry 6). -/
structure Config where
  /-- XLEN (R3). -/
  xlen : XLen
  /-- MEM_MAP: the ranges of memory that exist (R58). -/
  memMap : List MemRange
  /-- MISALIGNED_DATA (R54). -/
  misaligned : MisalignedData
  /-- RES_GRANULE, in bytes (R227). -/
  resGranule : Nat
  /-- HALT_SET: the pc values at which the hart stops (R397). -/
  haltSet : List DWord
  /-- RESET_PC (R420). -/
  resetPc : DWord
deriving DecidableEq, Repr

/-- `c.mapped a`: the byte at address `a` exists, that is, lies in a range of MEM_MAP (R58). -/
def Config.mapped (c : Config) (a : Nat) : Bool := c.memMap.any (·.contains a)

/-- An XLEN-bit address that is a multiple of 4, as RESET_PC and the members of HALT_SET are (R397, R420). -/
def Config.codeAddress (c : Config) (a : DWord) : Bool :=
  decide (a.toNat < 2 ^ c.xlen.bits) && decide (a.toNat % 4 = 0)

/-- The ranges of MEM_MAP lie inside the 2^XLEN-byte address space and are pairwise disjoint (R50, R58). -/
def Config.memMapOk (c : Config) : Bool :=
  c.memMap.all (fun r => decide (r.base + r.size ≤ 2 ^ c.xlen.bits)) &&
  decide (c.memMap.Pairwise fun r s => r.base + r.size ≤ s.base ∨ s.base + s.size ≤ r.base)

/-- RES_GRANULE is a power of two, at least the smallest access size of an LR; there is no upper bound (00_scope.md section
4, R227, D14). -/
def Config.granuleOk (c : Config) : Bool := decide (c.resGranule = 2 ^ c.resGranule.log2) && decide (4 ≤ c.resGranule)

/-- The parameters are ones the spec admits (R58, R227, R397, R420); a RESET_PC outside MEM_MAP is one of them, and its first
step raises (R420; log entry 9). -/
def Config.wf (c : Config) : Bool :=
  c.memMapOk && c.granuleOk && c.haltSet.all c.codeAddress && c.codeAddress c.resetPc

/-- SC_FAIL_CODE: what a failed SC writes to rd (R230). -/
def Config.scFailCode : Nat := 1

/-- FREE VALUE (log entry 11). R227 (f): a store-conditional whose reservation holds may still fail. Whether the
`n`-th such store-conditional of the run fails is `scFails n`; nothing constrains it but the fairness of R228. -/
opaque Config.scFails : Nat → Bool

/-- FREE VALUE (log entry 10). R72: a fetch of a byte stored to since the last FENCE.I returns any of its candidate
values. The `n`-th such byte of the run takes the candidate of index `fetchPick n` modulo their number. -/
opaque Config.fetchPick : Nat → Nat

end Sys2Proof
end

