-- ==== Sys2Proof/Machine/State.lean ====
section
/-!
DEFINITION. The state of the machine (R33): one hart, its memory, the parameters of the run, and the model's own counters
of free draws; the reasons a step can stop; and the machine right after reset (R35, R421).
-/
namespace Sys2Proof.Machine

/-- The seven exceptions of the hardware (R380). -/
inductive Exc where
  /-- A jump or taken branch to an address that is not a multiple of 4 (R382). -/
  | instructionAddressMisaligned
  /-- A fetch of a byte outside MEM_MAP (R383). -/
  | instructionAccessFault
  /-- A word that matches no row, a reserved `rm`, or a dynamic `rm` with a reserved `frm` (R384). -/
  | illegalInstruction
  /-- A load or LR at an address that is not naturally aligned (R385). -/
  | loadAddressMisaligned
  /-- A load or LR of a byte outside MEM_MAP (R385). -/
  | loadAccessFault
  /-- A store, SC or AMO at an address that is not naturally aligned (R385). -/
  | storeAmoAddressMisaligned
  /-- A store, SC or AMO of a byte outside MEM_MAP (R385). -/
  | storeAmoAccessFault
deriving DecidableEq, Repr

/-- Whether the hart still steps (R388, R397, R403). -/
inductive HartStatus where
  /-- Neither stopped nor trapped. -/
  | running
  /-- The pc reached HALT_SET (R397). -/
  | stopped
  /-- The hart raised exception `e` with trap value `tval` while executing the instruction at `pc` (R388). -/
  | trapped (e : Exc) (tval pc : DWord)
deriving DecidableEq, Repr

/-- A valid reservation: the `size` bytes from `base` on (R31, R227). -/
structure Reservation where
  /-- The lowest address of the reservation set. -/
  base : DWord
  /-- The number of bytes of the reservation set. -/
  size : Nat
deriving DecidableEq, Repr

/-- Memory as (address, byte) pairs, addresses strictly rising, no pair equal to what an unlisted address reads as
(R32; `Memory.wf`). -/
abbrev Memory := List Host.Cell

/-- The bytes stored to since the last FENCE.I, each with the values a fetch of it may return: first the value of the
last fence or launch, then each later stored value that differs (R72). Addresses strictly rising. -/
abbrev Unfenced := List (Nat × List Byte)

/-- The machine with one hart (R33, log entry 6). -/
structure State where
  /-- The parameters of the run, constant (R33, log entry 1). -/
  cfg : Config
  /-- x1 to x31, register `i` at index `i - 1`, in 64-bit containers; x0 is not stored (R20, R21, log entry 7). -/
  x : Vector DWord 31
  /-- The program counter, in a 64-bit container (R23). -/
  pc : DWord
  /-- f0 to f31 (R26). -/
  f : Vector DWord 32
  /-- The floating-point control and status register: `fflags` in bits 4:0, `frm` in bits 7:5 (R28, R29). -/
  fcsr : BitVec 32
  /-- The reservation (R31). -/
  reservation : Option Reservation
  /-- Memory (R32). -/
  mem : Memory
  /-- Running, stopped or trapped (R33, R388, R397). -/
  status : HartStatus
  /-- What fetches may still see of earlier contents (R72). -/
  unfenced : Unfenced
  /-- The model's own counter: free draws taken by store-conditionals (R227 (f), log entry 11). -/
  scDraws : Nat
  /-- The model's own counter: free draws taken by fetches of unfenced bytes (R72, log entry 10). -/
  fetchDraws : Nat
deriving DecidableEq, Repr

/-- Why a step answers no next state though the hart was given one to run. -/
inductive Fault where
  /-- Raised by a step of a hart that has stopped at HALT_SET: it never steps again (R397). Safe: nothing happens. -/
  | hartStopped
  /-- Raised by a step of a hart that has trapped: it takes no further step, ever (R388). Safe: nothing happens. -/
  | hartTrapped (e : Exc) (tval pc : DWord)
deriving DecidableEq, Repr

/-- Why the model declines. -/
inductive Refusal where
  /-- Raised by an arm of `exec` whose instruction has no meaning yet. Safe: no claim about it is provable. -/
  | notModelled (mnemonic : String)
  /-- Raised by a step whose pc is not a multiple of 4, which is no state of this hardware (R24, R398). Safe. -/
  | misalignedPc
  /-- Raised by a launch whose parameters or image the spec does not admit (R58, R397, R398). Safe. -/
  | illFormedLaunch
deriving DecidableEq, Repr

/-- The parameters of the reset state: open parameters of the spec, each at its default where the spec gives one and
at the value of the spec's own test vectors where it gives none (95_test_vectors.md section 2; log entry 2). -/
def resetConfig : Config where
  xlen := .rv64
  memMap := [⟨0, 0x100000⟩]
  misaligned := .trap
  resGranule := 8
  haltSet := []
  resetPc := 0x1000

/-- The machine right after reset (R35, R421): pc at RESET_PC, no reservation, running, `frm` and `fflags` at their
defaults; the registers and memory bytes whose value the spec leaves open are zero (log entries 3, 5). -/
def State.reset : State where
  cfg := resetConfig
  x := Vector.replicate 31 0
  pc := resetConfig.resetPc
  f := Vector.replicate 32 0
  fcsr := 0
  reservation := none
  mem := []
  status := .running
  unfenced := []
  scDraws := 0
  fetchDraws := 0

end Sys2Proof.Machine
end

