-- ==== Sys2Proof/Machine/Ops.lean ====
section
/-!
DEFINITION. The shared operations of the meanings: reading and writing registers and the pc, taking an exception,
advancing and jumping, reading and writing memory with its checks, LR, SC and AMO.
-/
namespace Sys2Proof.Machine

/-- What a meaning answers. -/
abbrev Res := Host.Outcome State Fault Refusal

/-! ### Integer registers and the pc (R20 to R24) -/

/-- `x[r]`: the XLEN-bit value of integer register `r`; x0 reads as zero (R9, R20, R21). -/
def State.rX (s : State) (r : XReg) : BitVec s.cfg.xlen.bits :=
  if r = 0 then 0 else (s.x[r.toNat - 1]'(by have := r.isLt; omega)).setWidth s.cfg.xlen.bits

/-- `x[r] <- v`: the low XLEN bits of `v` go to integer register `r`; a write to x0 is discarded (R9, R21). -/
def State.wX (s : State) (r : XReg) {n : Nat} (v : BitVec n) : State :=
  { s with
    x := if r = 0 then s.x
      else s.x.set (r.toNat - 1) ((v.setWidth s.cfg.xlen.bits).setWidth 64) (by have := r.isLt; omega) }

/-- The XLEN-bit address of the instruction being executed (R23). -/
def State.rPc (s : State) : BitVec s.cfg.xlen.bits := s.pc.setWidth s.cfg.xlen.bits

/-- `pc <- t` (R9). -/
def State.setPc (s : State) {n : Nat} (t : BitVec n) : State :=
  { s with pc := (t.setWidth s.cfg.xlen.bits).setWidth 64 }

/-- The sequential advance `pc <- pc + 4`, modulo 2^XLEN (R24). -/
def State.advance (s : State) : State := s.setPc (s.rPc + 4)

/-- The end of an instruction that writes `v` to integer register `rd` and advances (R11 step 5, R24). -/
def State.finishX (s : State) (rd : XReg) {n : Nat} (v : BitVec n) : Res := .next (s.wX rd v).advance

/-! ### Floating-point registers (R26) -/

/-- `f[r]`: floating-point register `r` (R9, R26). -/
def State.rF (s : State) (r : FReg) : DWord := s.f[r.toNat]'(by have := r.isLt; omega)

/-- `f[r] <- v` (R9, R26). -/
def State.wF (s : State) (r : FReg) (v : DWord) : State :=
  { s with f := s.f.set r.toNat v (by have := r.isLt; omega) }

/-- The end of an instruction that writes `v` to floating-point register `rd` and advances (R24). -/
def State.finishF (s : State) (rd : FReg) (v : DWord) : Res := .next (s.wF rd v).advance

/-! ### Taking an exception (R387, R388) -/

/-- The trap entry: the status becomes `trapped(e, tval, pc)` and nothing else changes; registers, `fcsr`, memory, the
reservation and the pc are as before the instruction (R387, R388). The spec has no handler to enter and no instruction
that returns from a trap (R390), so nothing stands beside it. -/
def State.takeTrap (s : State) (e : Exc) (tval : DWord) : State := { s with status := .trapped e tval s.pc }

/-- `raise e(tval)`: abandon the instruction and take the trap; the trap value is zero-extended into its container (R11,
R381). -/
def raise (s : State) (e : Exc) {n : Nat} (tval : BitVec n) : Res := .next (s.takeTrap e (tval.setWidth 64))

/-- An instruction whose row exists only at XLEN = 64: at XLEN = 32 its word is illegal (R113). `i` is the instruction,
for the trap value (R384; log entry 12). -/
def onRv64 (s : State) (i : Instr) (k : Res) : Res :=
  match s.cfg.xlen with
  | .rv64 => k
  | .rv32 => raise s .illegalInstruction (encode i)

/-! ### Control transfer (R133 to R140, R382) -/

/-- A jump to `t` that writes the return address `pc + 4` to `rd`; a target that is not a multiple of 4 raises on the
jump and `rd` is not written (R133, R134, R382). -/
def jump (s : State) (rd : XReg) (t : BitVec s.cfg.xlen.bits) : Res :=
  if t.extractLsb' 0 2 = 0 then .next ((s.wX rd (s.rPc + 4)).setPc t)
  else raise s .instructionAddressMisaligned t

/-- A conditional branch by `off` bytes: only a taken branch can raise (R135 to R140, R382). -/
def branch (s : State) (taken : Bool) (off : BitVec 13) : Res :=
  let t := s.rPc + off.signExtend s.cfg.xlen.bits
  if taken then
    if t.extractLsb' 0 2 = 0 then .next (s.setPc t) else raise s .instructionAddressMisaligned t
  else .next s.advance

/-! ### Memory bytes (R32, R50, R51) -/

/-- What an address that memory does not list reads as: the launch content of a byte that the image does not define, which
the spec leaves open (R35; log entry 5). -/
def Memory.unlisted : Byte := 0

/-- The canonical form of memory: addresses strictly rising, no entry equal to what an unlisted address reads as. -/
def Memory.wf (m : Memory) : Bool :=
  decide (m.Pairwise fun c d => c.1 < d.1) && m.all fun c => c.2 != Memory.unlisted

/-- The byte at address `a`. -/
def memByte (m : Memory) (a : Nat) : Byte := (m.lookup a).getD Memory.unlisted

/-- Memory with the byte at address `a` set to `v`, in canonical form. -/
def memInsert (a : Nat) (v : Byte) : Memory → Memory
  | [] => if v = Memory.unlisted then [] else [(a, v)]
  | c :: m =>
    if a < c.1 then if v = Memory.unlisted then c :: m else (a, v) :: c :: m
    else if a = c.1 then if v = Memory.unlisted then m else (a, v) :: m
    else c :: memInsert a v m

/-- The candidates of a fetch of address `a` after `v` is stored over `old`: `old` and each later stored value (R72). A
store that leaves the byte as every fetch already sees it adds nothing. -/
def noteStore (a : Nat) (old v : Byte) : Unfenced → Unfenced
  | [] => if v = old then [] else [(a, [old, v])]
  | c :: u =>
    if a < c.1 then if v = old then c :: u else (a, [old, v]) :: c :: u
    else if a = c.1 then if c.2.contains v then c :: u else (a, c.2 ++ [v]) :: u
    else c :: noteStore a old v u

/-- The addresses of the `n` bytes of an access at `a`, modulo the size of the address space (R50, R61). -/
def byteAddrs {w : Nat} (a : BitVec w) (n : Nat) : List Nat :=
  (List.range n).map fun i => (a + BitVec.ofNat w i).toNat

/-- The bytes a store of the low `n` bytes of `v` at `a` writes: little-endian (R10, R51). -/
def storeCells {w k : Nat} (a : BitVec w) (n : Nat) (v : BitVec k) : List Host.Cell :=
  (List.range n).map fun i => ((a + BitVec.ofNat w i).toNat, v.extractLsb' (8 * i) 8)

/-- Memory and the fetch candidates after some bytes are stored in order. -/
def storeBytes : List Host.Cell → Memory × Unfenced → Memory × Unfenced
  | [], mu => mu
  | c :: cs, mu => storeBytes cs (memInsert c.1 c.2 mu.1, noteStore c.1 (memByte mu.1 c.1) c.2 mu.2)

/-- The number that bytes spell, the first the least significant (R51). -/
def leNat : List Byte → Nat
  | [] => 0
  | b :: bs => b.toNat + 256 * leNat bs

/-- The `n` bytes at `a` as one little-endian value, without any check (R10, R51). -/
def State.memRead (s : State) {w : Nat} (a : BitVec w) (n : Nat) : BitVec (8 * n) :=
  BitVec.ofNat (8 * n) (leNat ((byteAddrs a n).map (memByte s.mem)))

/-- The low `n` bytes of `v` stored at `a`, without any check (R10, R51). -/
def State.memWrite (s : State) {w k : Nat} (a : BitVec w) (n : Nat) (v : BitVec k) : State :=
  { s with
    mem := (storeBytes (storeCells a n v) (s.mem, s.unfenced)).1
    unfenced := (storeBytes (storeCells a n v) (s.mem, s.unfenced)).2 }

/-! ### Checked accesses (R54, R55, R59, R385, R386) -/

/-- The two sides of the exceptions of an access: loads and LR, or stores, SC and AMO (R385). -/
inductive Access where
  /-- A load, a floating-point load, or LR. -/
  | load
  /-- A store, a floating-point store, SC, or AMO. -/
  | store
deriving DecidableEq, Repr

/-- The exception of a misaligned access (R385). -/
def misalignedExc : Access → Exc
  | .load => .loadAddressMisaligned
  | .store => .storeAmoAddressMisaligned

/-- The exception of an access to a vacant byte (R385). -/
def accessFaultExc : Access → Exc
  | .load => .loadAccessFault
  | .store => .storeAmoAccessFault

/-- The exception of an access of `n` bytes at `a`, if it has one: first alignment (for plain accesses only under
MISALIGNED_DATA = trap, for atomic ones always), then MEM_MAP (R54, R55, R59, R385, R386). -/
def State.accessExc (s : State) (k : Access) (atomic : Bool) {w : Nat} (a : BitVec w) (n : Nat) : Option Exc :=
  if a.toNat % n ≠ 0 ∧ (atomic = true ∨ s.cfg.misaligned = .trap) then some (misalignedExc k)
  else if (byteAddrs a n).all s.cfg.mapped then none
  else some (accessFaultExc k)

/-- `MemRead(addr, n)` with its checks, then `k` of the value read (R10, R385). -/
def load (s : State) {w : Nat} (a : BitVec w) (n : Nat) (k : BitVec (8 * n) → Res) : Res :=
  match s.accessExc .load false a n with
  | some e => raise s e a
  | none => k (s.memRead a n)

/-- `MemWrite(addr, n, v)` with its checks, then the advance (R10, R385). -/
def store (s : State) {w k : Nat} (a : BitVec w) (n : Nat) (v : BitVec k) : Res :=
  match s.accessExc .store false a n with
  | some e => raise s e a
  | none => .next (s.memWrite a n v).advance

/-! ### Atomics (R225 to R230) -/

/-- The reservation an LR of `n` bytes at `a` makes: the aligned block of `G = max(RES_GRANULE, n)` bytes (R227 (a)). -/
def State.reservationAt (s : State) {w : Nat} (a : BitVec w) (n : Nat) : Reservation where
  base := (a &&& ~~~ BitVec.ofNat w (max s.cfg.resGranule n - 1)).setWidth 64
  size := max s.cfg.resGranule n

/-- The reservation is valid and all `n` bytes at `a` lie inside it (R227 (e)). -/
def State.reserved (s : State) {w : Nat} (a : BitVec w) (n : Nat) : Bool :=
  match s.reservation with
  | none => false
  | some r => decide (r.base.toNat ≤ a.toNat) && decide (a.toNat + n ≤ r.base.toNat + r.size)

/-- LR of `n` bytes at `a` into `rd` (R227 (a), R229, R251). -/
def loadReserved (s : State) (rd : XReg) {w : Nat} (a : BitVec w) (n : Nat) : Res :=
  match s.accessExc .load true a n with
  | some e => raise s e a
  | none =>
    ({ s with reservation := some (s.reservationAt a n) } : State).finishX rd
      ((s.memRead a n).signExtend s.cfg.xlen.bits)

/-- SC of the low `n` bytes of `v` at `a`, status into `rd` (R227 (b), (e), (f), R230, R252). The draw of (f) is taken
only when (e) holds (log entry 11). -/
def storeConditional (s : State) (rd : XReg) {w k : Nat} (a : BitVec w) (n : Nat) (v : BitVec k) : Res :=
  match s.accessExc .store true a n with
  | some e => raise s e a
  | none =>
    if s.reserved a n then
      let s' : State := { s with reservation := none, scDraws := s.scDraws + 1 }
      if Config.scFails s.scDraws then s'.finishX rd (BitVec.ofNat 64 Config.scFailCode)
      else (s'.memWrite a n v).finishX rd (0 : DWord)
    else ({ s with reservation := none } : State).finishX rd (BitVec.ofNat 64 Config.scFailCode)

/-- An AMO: `t <- MemAMO(a, n, op, v)`; `x[rd] <- sext_XLEN(t)` (R225, R231 to R239, R253 to R261). -/
def amo (s : State) (rd : XReg) {w : Nat} (a : BitVec w) (n : Nat)
    (op : BitVec (8 * n) → BitVec (8 * n) → BitVec (8 * n)) (v : BitVec (8 * n)) : Res :=
  match s.accessExc .store true a n with
  | some e => raise s e a
  | none => (s.memWrite a n (op (s.memRead a n) v)).finishX rd ((s.memRead a n).signExtend s.cfg.xlen.bits)

end Sys2Proof.Machine
end

