-- ==== Sys2Proof/Machine/Operands.lean ====
section
/-!
DEFINITION. The operand forms: immediates, effective addresses, shift amounts, the low words and the boxed singles that
instructions read.
-/
namespace Sys2Proof.Machine

/-- `sext_XLEN` of the 12-bit I- or S-immediate (R103, R104). -/
def State.imm12 (s : State) (imm : BitVec 12) : BitVec s.cfg.xlen.bits := imm.signExtend s.cfg.xlen.bits

/-- `sext_XLEN(inst[31:12] ++ 0x000)`, the U-immediate (R106). -/
def State.immUpper (s : State) (imm : BitVec 20) : BitVec s.cfg.xlen.bits :=
  (imm ++ (0 : BitVec 12)).signExtend s.cfg.xlen.bits

/-- The effective address `x[rs1] + sext_XLEN(imm)` modulo 2^XLEN (R61). -/
def State.ea (s : State) (rs1 : XReg) (imm : BitVec 12) : BitVec s.cfg.xlen.bits := s.rX rs1 + s.imm12 imm

/-- The shift amount of SLL, SRL, SRA: the low 5 bits of `x[rs2]` when XLEN = 32, the low 6 when XLEN = 64 (R108, R160). -/
def State.shiftAmount (s : State) (rs2 : XReg) : Nat :=
  match s.cfg.xlen with
  | .rv32 => ((s.rX rs2).extractLsb' 0 5).toNat
  | .rv64 => ((s.rX rs2).extractLsb' 0 6).toNat

/-- `x[r][31:0]`, the low word of integer register `r` (R180, R225). -/
def State.rW (s : State) (r : XReg) : BitVec 32 := (s.rX r).setWidth 32

/-- The shift amount of SLLW, SRLW, SRAW: the low 5 bits of `x[rs2]` (R193). -/
def State.shiftAmountW (s : State) (rs2 : XReg) : Nat := ((s.rX rs2).extractLsb' 0 5).toNat

/-- The end of a "W" instruction: the 32-bit result sign-extended into `rd` (R180, R215). -/
def State.finishW (s : State) (rd : XReg) (v : BitVec 32) : Res := s.finishX rd (v.signExtend 64)

/-- `bool_XLEN(c)` (R8). -/
def State.boolX (s : State) (c : Bool) : BitVec s.cfg.xlen.bits := if c then 1 else 0

/-- `unbox32(v)`: the single a 64-bit register holds, the canonical NaN when it is not boxed (R12, R27). -/
def unbox32 (v : DWord) : BitVec 32 :=
  if v.extractLsb' 32 32 = BitVec.allOnes 32 then v.extractLsb' 0 32 else 0x7fc00000

/-- `box32(v)` (R12, R27). -/
def box32 (v : BitVec 32) : DWord := BitVec.allOnes 32 ++ v

/-- A single-precision operand `unbox32(f[r])` (R270). -/
def State.rF32 (s : State) (r : FReg) : BitVec 32 := unbox32 (s.rF r)

/-- The end of an instruction that writes a single-precision result: `f[rd] <- box32(v)` (R270). -/
def State.finishF32 (s : State) (rd : FReg) (v : BitVec 32) : Res := s.finishF rd (box32 v)

end Sys2Proof.Machine
end

