-- ==== Sys2Proof/Machine/Rv32a.lean ====
section
/-! DEFINITION. The meanings of RV32A: atomic word instructions (44_rv32a.md). -/
namespace Sys2Proof.Machine

/-- LR.W: load-reserved word (R229). -/
def execLrW (rd rs1 : XReg) (_aq _rl : Bool) (s : State) : Res :=
  loadReserved s rd (s.rX rs1) 4

/-- SC.W: store-conditional word (R230). -/
def execScW (rd rs2 rs1 : XReg) (_aq _rl : Bool) (s : State) : Res :=
  storeConditional s rd (s.rX rs1) 4 (s.rX rs2)

/-- AMOSWAP.W: atomic swap word (R231). -/
def execAmoswapW (rd rs2 rs1 : XReg) (_aq _rl : Bool) (s : State) : Res :=
  amo s rd (s.rX rs1) 4 (fun _ v => v) (s.rW rs2)

/-- AMOADD.W: atomic add word (R232). -/
def execAmoaddW (rd rs2 rs1 : XReg) (_aq _rl : Bool) (s : State) : Res :=
  amo s rd (s.rX rs1) 4 (fun old v => old + v) (s.rW rs2)

/-- AMOXOR.W: atomic exclusive-or word (R233). -/
def execAmoxorW (rd rs2 rs1 : XReg) (_aq _rl : Bool) (s : State) : Res :=
  amo s rd (s.rX rs1) 4 (fun old v => old ^^^ v) (s.rW rs2)

/-- AMOOR.W: atomic or word (R234). -/
def execAmoorW (rd rs2 rs1 : XReg) (_aq _rl : Bool) (s : State) : Res :=
  amo s rd (s.rX rs1) 4 (fun old v => old ||| v) (s.rW rs2)

/-- AMOAND.W: atomic and word (R235). -/
def execAmoandW (rd rs2 rs1 : XReg) (_aq _rl : Bool) (s : State) : Res :=
  amo s rd (s.rX rs1) 4 (fun old v => old &&& v) (s.rW rs2)

/-- AMOMIN.W: atomic signed minimum word (R236). -/
def execAmominW (rd rs2 rs1 : XReg) (_aq _rl : Bool) (s : State) : Res :=
  amo s rd (s.rX rs1) 4 (fun old v => if old.slt v then old else v) (s.rW rs2)

/-- AMOMAX.W: atomic signed maximum word (R237). -/
def execAmomaxW (rd rs2 rs1 : XReg) (_aq _rl : Bool) (s : State) : Res :=
  amo s rd (s.rX rs1) 4 (fun old v => if v.slt old then old else v) (s.rW rs2)

/-- AMOMINU.W: atomic unsigned minimum word (R238). -/
def execAmominuW (rd rs2 rs1 : XReg) (_aq _rl : Bool) (s : State) : Res :=
  amo s rd (s.rX rs1) 4 (fun old v => if old.ult v then old else v) (s.rW rs2)

/-- AMOMAXU.W: atomic unsigned maximum word (R239). -/
def execAmomaxuW (rd rs2 rs1 : XReg) (_aq _rl : Bool) (s : State) : Res :=
  amo s rd (s.rX rs1) 4 (fun old v => if v.ult old then old else v) (s.rW rs2)

end Sys2Proof.Machine
end

