-- ==== Sys2Proof/Machine/Flags.lean ====
section
/-!
DEFINITION. The status register: the accrued exception flags and the dynamic rounding mode of `fcsr`, the flag masks, and
`RM()` (R28, R29, R271, R272).
-/
namespace Sys2Proof.Machine

/-- The five-bit mask of floating-point exception flags an operation signals (R272). -/
abbrev FFlags := BitVec 5

/-- No flag. -/
def flagsNone : FFlags := 0
/-- NV, invalid operation: bit 4 (R28). -/
def flagNV : FFlags := 16
/-- DZ, divide by zero: bit 3 (R28). -/
def flagDZ : FFlags := 8
/-- OF, overflow: bit 2 (R28). -/
def flagOF : FFlags := 4
/-- UF, underflow: bit 1 (R28). -/
def flagUF : FFlags := 2
/-- NX, inexact: bit 0 (R28). -/
def flagNX : FFlags := 1

/-- NV when `c` holds, no flag otherwise. -/
def nvIf (c : Bool) : FFlags := if c then flagNV else flagsNone
/-- NX when `c` holds, no flag otherwise. -/
def nxIf (c : Bool) : FFlags := if c then flagNX else flagsNone

/-- `fcsr.fflags`, bits 4:0 (R28). -/
def State.fflags (s : State) : FFlags := s.fcsr.extractLsb' 0 5

/-- `fcsr.frm`, bits 7:5 (R29). -/
def State.frm (s : State) : Rm := s.fcsr.extractLsb' 5 3

/-- `fflags |= m`: flags accumulate and are never cleared (R12, R28). -/
def State.orFlags (s : State) (m : FFlags) : State := { s with fcsr := s.fcsr ||| m.setWidth 32 }

/-- The five rounding modes (R271). -/
inductive RMode where
  /-- To nearest, ties to even. -/
  | rne
  /-- Toward zero. -/
  | rtz
  /-- Down, toward minus infinity. -/
  | rdn
  /-- Up, toward plus infinity. -/
  | rup
  /-- To nearest, ties to the larger magnitude. -/
  | rmm
deriving DecidableEq, Repr

/-- The rounding mode a three-bit code names; 101, 110 and 111 name none (R29, R271). -/
def RMode.ofCode (c : Rm) : Option RMode :=
  if c = 0 then some .rne else if c = 1 then some .rtz else if c = 2 then some .rdn
  else if c = 3 then some .rup else if c = 4 then some .rmm else none

/-- `RM()`: the effective rounding mode of an instruction with the field `rm`; `none` where the instruction is illegal,
for a reserved `rm`, or a dynamic one with a reserved `frm` (R112, R271). -/
def State.roundingMode (s : State) (rm : Rm) : Option RMode :=
  if rm = 7 then RMode.ofCode s.frm else RMode.ofCode rm

/-- An instruction `i` with the rounding-mode field `rm`: it raises IllegalInstruction before anything else where `RM()`
does (R112, R270, R384), and otherwise is `k` of the mode. The trap value is the instruction's word (log entry 16). -/
def withRm (s : State) (i : Instr) (rm : Rm) (k : RMode → Res) : Res :=
  match s.roundingMode rm with
  | some m => k m
  | none => raise s .illegalInstruction (encode i)

/-- The end of an operation with a single-precision result `r` and flags (R270). -/
def State.finishF32Flags (s : State) (rd : FReg) (r : BitVec 32 × FFlags) : Res := (s.orFlags r.2).finishF32 rd r.1

/-- The end of an operation with a double-precision result `r` and flags (R330). -/
def State.finishF64Flags (s : State) (rd : FReg) (r : DWord × FFlags) : Res := (s.orFlags r.2).finishF rd r.1

/-- The end of an operation with an integer result `r` and flags (R291 to R295, R301). -/
def State.finishXFlags (s : State) (rd : XReg) {n : Nat} (r : BitVec n × FFlags) : Res := (s.orFlags r.2).finishX rd r.1

end Sys2Proof.Machine
end

