-- ==== Sys2Proof/Machine/SoftFloat.lean ====
section
/-!
DEFINITION. Floating-point arithmetic on bit patterns (R12, R272 to R274, R281 to R301): every operation computes its exact
real result and rounds it once. Exact results are rationals, or square roots of rationals, which are rounded by integer
comparison of squares (log entry 17).
-/
namespace Sys2Proof.Machine

/-! ### Formats (R274, R330) -/

/-- The two formats: binary32 and binary64. -/
inductive Fmt where
  /-- Single precision. -/
  | f32
  /-- Double precision. -/
  | f64
deriving DecidableEq, Repr

/-- The number of bits of a pattern. -/
@[reducible] def Fmt.width : Fmt → Nat
  | .f32 => 32
  | .f64 => 64

/-- The number of fraction bits, one less than the precision `p` (R274). -/
def Fmt.fracBits : Fmt → Nat
  | .f32 => 23
  | .f64 => 52

/-- The number of exponent bits. -/
def Fmt.expBits : Fmt → Nat
  | .f32 => 8
  | .f64 => 11

/-- The precision `p`: 24 or 53 (R274). -/
def Fmt.prec (F : Fmt) : Nat := F.fracBits + 1

/-- The largest exponent `emax`: 127 or 1023 (R274). -/
def Fmt.emax : Fmt → Int
  | .f32 => 127
  | .f64 => 1023

/-- The exponent `emin` of the smallest normal number: -126 or -1022 (R274). -/
def Fmt.emin (F : Fmt) : Int := 1 - F.emax

/-- The exponent of the quantum of the subnormal numbers, `emin - p + 1` (R274). -/
def Fmt.qmin (F : Fmt) : Int := F.emin - F.prec + 1

/-- The canonical NaN (R273). -/
def Fmt.canonicalNaN : (F : Fmt) → BitVec F.width
  | .f32 => (0x7fc00000 : BitVec 32)
  | .f64 => (0x7ff8000000000000 : BitVec 64)

/-- The pattern with the sign bit of `neg` and the magnitude bits `k`. -/
def Fmt.signed (F : Fmt) (neg : Bool) (k : Nat) : BitVec F.width :=
  BitVec.ofNat F.width ((if neg then 2 ^ (F.width - 1) else 0) + k)

/-- The zero of a sign. -/
def Fmt.zero (F : Fmt) (neg : Bool) : BitVec F.width := F.signed neg 0

/-- The infinity of a sign. -/
def Fmt.inf (F : Fmt) (neg : Bool) : BitVec F.width := F.signed neg ((2 ^ F.expBits - 1) * 2 ^ F.fracBits)

/-- The largest finite number of a sign. -/
def Fmt.maxFinite (F : Fmt) (neg : Bool) : BitVec F.width :=
  F.signed neg ((2 ^ F.expBits - 1) * 2 ^ F.fracBits - 1)

/-- `2^e` for any integer `e`. -/
def pow2 : Int → Rat
  | .ofNat n => ((2 ^ n : Nat) : Rat)
  | .negSucc n => mkRat 1 (2 ^ (n + 1))

/-! ### Values (R273, R274) -/

/-- What a bit pattern stands for. -/
inductive FVal where
  /-- A NaN, signalling or quiet. -/
  | nan (signalling : Bool)
  /-- An infinity of a sign. -/
  | inf (neg : Bool)
  /-- A zero of a sign. -/
  | zero (neg : Bool)
  /-- A finite number other than zero. -/
  | fin (v : Rat)
deriving DecidableEq, Repr

/-- `v`, or `-v` when `neg` holds. -/
def negIf (neg : Bool) (v : Rat) : Rat := if neg then -v else v

/-- The value of a pattern: sign, exponent field and fraction field; an all-ones exponent marks infinities and NaNs, a
zero exponent zeros and subnormals (R273, R274). -/
def Fmt.value (F : Fmt) (b : BitVec F.width) : FVal :=
  let frac := (b.extractLsb' 0 F.fracBits).toNat
  let ex := (b.extractLsb' F.fracBits F.expBits).toNat
  if ex = 2 ^ F.expBits - 1 then
    if frac = 0 then .inf b.msb else .nan !(b.getLsbD (F.fracBits - 1))
  else if ex = 0 then
    if frac = 0 then .zero b.msb else .fin (negIf b.msb ((frac : Rat) * pow2 F.qmin))
  else .fin (negIf b.msb (((2 ^ F.fracBits + frac : Nat) : Rat) * pow2 (F.qmin + (ex - 1 : Nat))))

/-- A NaN. -/
def FVal.isNaN : FVal → Bool
  | .nan _ => true
  | .inf _ => false
  | .zero _ => false
  | .fin _ => false

/-- A signalling NaN. -/
def FVal.isSNaN : FVal → Bool
  | .nan sig => sig
  | .inf _ => false
  | .zero _ => false
  | .fin _ => false

/-- The value with its sign inverted when `neg` holds; a NaN stays as it is. -/
def FVal.negIf (neg : Bool) : FVal → FVal
  | .nan sig => .nan sig
  | .inf n => .inf (n != neg)
  | .zero n => .zero (n != neg)
  | .fin v => .fin (Machine.negIf neg v)

/-- The sign of a value that is not a NaN. -/
def FVal.sign : FVal → Bool
  | .nan _ => false
  | .inf n => n
  | .zero n => n
  | .fin v => decide (v < 0)

/-- Numerical order of values that are not NaNs; the two zeros are equal (R288, R291, R292). -/
def FVal.lt : FVal → FVal → Bool
  | .nan _, _ => false
  | _, .nan _ => false
  | .inf n, .inf n' => n && !n'
  | .inf n, _ => n
  | _, .inf n => !n
  | .zero _, .zero _ => false
  | .zero _, .fin w => decide (0 < w)
  | .fin v, .zero _ => decide (v < 0)
  | .fin v, .fin w => decide (v < w)

/-- Numerical equality of values that are not NaNs; the two zeros are equal (R293). -/
def FVal.numEq (a b : FVal) : Bool := !a.isNaN && !b.isNaN && !a.lt b && !b.lt a

/-! ### Exact results and their rounding to a multiple of a quantum (R274) -/

/-- An exact real result other than zero. -/
inductive Exact where
  /-- The rational `v`. -/
  | rat (v : Rat)
  /-- The square root of the positive rational `v`. -/
  | root (v : Rat)
deriving DecidableEq, Repr

/-- Where a real lies above the multiple of the quantum below it. -/
inductive Excess where
  /-- On the multiple. -/
  | none
  /-- Less than half a quantum above it. -/
  | belowHalf
  /-- Half a quantum above it. -/
  | half
  /-- More than half a quantum above it. -/
  | aboveHalf
deriving DecidableEq, Repr

/-- The greatest natural whose square is at most `n`, of those that agree with `r` above the `i` low bits. -/
def isqrtFrom (n : Nat) : Nat → Nat → Nat
  | 0, r => r
  | i + 1, r => isqrtFrom n i (if (r + 2 ^ i) * (r + 2 ^ i) ≤ n then r + 2 ^ i else r)

/-- The integer square root: the greatest natural whose square is at most `n`. -/
def isqrt (n : Nat) : Nat := isqrtFrom n (n.log2 / 2 + 1) 0

/-- `floor(log2 v)` of a positive rational. -/
def ratLog2 (v : Rat) : Int :=
  let l : Int := (v.num.natAbs.log2 : Int) - (v.den.log2 : Int)
  if pow2 l ≤ v then l else l - 1

/-- The result is negative. -/
def Exact.neg : Exact → Bool
  | .rat v => decide (v < 0)
  | .root _ => false

/-- `floor(log2 |v|)`, the exponent `e` of R274. -/
def Exact.log2 : Exact → Int
  | .rat v => ratLog2 (if v < 0 then -v else v)
  | .root v => ratLog2 v / 2

/-- The excess of a rational `t` over its floor. -/
def excessOf (t : Rat) : Excess :=
  let r := t - (t.floor : Rat)
  if r = 0 then .none else if r < mkRat 1 2 then .belowHalf else if r = mkRat 1 2 then .half else .aboveHalf

/-- The excess of the square root of `w` over its floor `f`. -/
def excessOfRoot (w : Rat) (f : Nat) : Excess :=
  if w = ((f * f : Nat) : Rat) then .none
  else if 4 * w < (((2 * f + 1) * (2 * f + 1) : Nat) : Rat) then .belowHalf
  else if 4 * w = (((2 * f + 1) * (2 * f + 1) : Nat) : Rat) then .half
  else .aboveHalf

/-- The result divided by the quantum `2^q`: its floor and its excess over it. -/
def Exact.divQuantum (x : Exact) (q : Int) : Int × Excess :=
  match x with
  | .rat v => ((v * pow2 (-q)).floor, excessOf (v * pow2 (-q)))
  | .root v =>
    let w := v * pow2 (-(2 * q))
    ((isqrt w.floor.toNat : Int), excessOfRoot w (isqrt w.floor.toNat))

/-- The integer a rounding mode chooses for a real of sign `neg` between the integer `f` and `f + 1` (R274): for RNE a
tie goes to the even one, for RMM away from zero. -/
def roundInt (m : RMode) (neg : Bool) (f : Int) (x : Excess) : Int :=
  match x with
  | .none => f
  | .belowHalf =>
    match m with
    | .rne | .rmm => f
    | .rtz => if neg then f + 1 else f
    | .rdn => f
    | .rup => f + 1
  | .half =>
    match m with
    | .rne => if f % 2 = 0 then f else f + 1
    | .rmm => if neg then f else f + 1
    | .rtz => if neg then f + 1 else f
    | .rdn => f
    | .rup => f + 1
  | .aboveHalf =>
    match m with
    | .rne | .rmm => f + 1
    | .rtz => if neg then f + 1 else f
    | .rdn => f
    | .rup => f + 1

/-- `round(rm, v, 2^q)` of R274, as the integer multiple of `2^q`, and whether it differs from `v`. -/
def Exact.roundTo (x : Exact) (m : RMode) (q : Int) : Int × Bool :=
  (roundInt m x.neg (x.divQuantum q).1 (x.divQuantum q).2, decide ((x.divQuantum q).2 ≠ .none))

/-! ### Rounding to a format (R274) -/

/-- The result of an overflow (R274 (1)). -/
def Fmt.overflow (F : Fmt) (m : RMode) (neg : Bool) : BitVec F.width :=
  match m with
  | .rne | .rmm => F.inf neg
  | .rtz => F.maxFinite neg
  | .rdn => if neg then F.inf neg else F.maxFinite neg
  | .rup => if neg then F.maxFinite neg else F.inf neg

/-- The pattern of the number of sign `neg` and magnitude `k * 2^q`, for `qmin ≤ q`, `k ≤ 2^p`, and `2^(p-1) ≤ k` unless
`q = qmin`: a carry out of the fraction moves to the next exponent by itself. -/
def Fmt.pack (F : Fmt) (neg : Bool) (q : Int) (k : Nat) : BitVec F.width :=
  F.signed neg ((q - F.qmin).toNat * 2 ^ F.fracBits + k)

/-- Rounding of an exact result other than zero (R274): overflow is judged on the value rounded with unbounded exponent
range, and so is tininess. -/
def Fmt.round (F : Fmt) (m : RMode) (x : Exact) : BitVec F.width × FFlags :=
  let q := x.log2 - F.prec + 1
  let u := x.roundTo m q
  let mag : Rat := (u.1.natAbs : Rat) * pow2 q
  if pow2 (F.emax + 1) ≤ mag then (F.overflow m x.neg, flagOF ||| flagNX)
  else if F.emin ≤ x.log2 then (F.pack x.neg q u.1.natAbs, nxIf u.2)
  else
    let r := x.roundTo m F.qmin
    (F.pack x.neg F.qmin r.1.natAbs,
      if r.2 then (if mag < pow2 F.emin then flagUF ||| flagNX else flagNX) else flagsNone)

/-! ### Operations (R273, R281 to R290, R301) -/

/-- The canonical NaN, with NV when `nv` holds (R273 (a), (b)). -/
def Fmt.nanResult (F : Fmt) (nv : Bool) : BitVec F.width × FFlags := (F.canonicalNaN, nvIf nv)

/-- The zero of an exact zero sum: +0, or -0 under RDN (R274, R281). -/
def Fmt.zeroSum (F : Fmt) (m : RMode) : BitVec F.width × FFlags := (F.zero (decide (m = .rdn)), flagsNone)

/-- The sum of two rationals, rounded; an exact zero by its own rule (R274, R281). -/
def Fmt.roundSum (F : Fmt) (m : RMode) (v w : Rat) : BitVec F.width × FFlags :=
  if v + w = 0 then F.zeroSum m else F.round m (.rat (v + w))

/-- The sum of two values that are not NaNs (R281, section 3 of 46_rv32f.md). -/
def Fmt.addValues (F : Fmt) (m : RMode) : FVal → FVal → BitVec F.width × FFlags
  | .nan _, _ => F.nanResult false
  | _, .nan _ => F.nanResult false
  | .inf n, .inf n' => if n = n' then (F.inf n, flagsNone) else F.nanResult true
  | .inf n, _ => (F.inf n, flagsNone)
  | _, .inf n => (F.inf n, flagsNone)
  | .zero n, .zero n' => if n = n' then (F.zero n, flagsNone) else F.zeroSum m
  | .zero _, .fin w => F.roundSum m 0 w
  | .fin v, .zero _ => F.roundSum m v 0
  | .fin v, .fin w => F.roundSum m v w

/-- `F.add` (R281). -/
def Fmt.add (F : Fmt) (m : RMode) (a b : BitVec F.width) : BitVec F.width × FFlags :=
  if (F.value a).isNaN || (F.value b).isNaN then F.nanResult ((F.value a).isSNaN || (F.value b).isSNaN)
  else F.addValues m (F.value a) (F.value b)

/-- `F.sub` (R282): the sum with the sign of `b` inverted, a NaN `b` not negated. -/
def Fmt.sub (F : Fmt) (m : RMode) (a b : BitVec F.width) : BitVec F.width × FFlags :=
  if (F.value a).isNaN || (F.value b).isNaN then F.nanResult ((F.value a).isSNaN || (F.value b).isSNaN)
  else F.addValues m (F.value a) ((F.value b).negIf true)

/-- The exact product of two values that are not NaNs, `none` where it is invalid (infinity times zero) (R283). -/
def FVal.mul : FVal → FVal → Option FVal
  | .nan _, _ => none
  | _, .nan _ => none
  | .inf _, .zero _ => none
  | .zero _, .inf _ => none
  | .fin v, .fin w => some (.fin (v * w))
  | .zero n, b => some (.zero (n != b.sign))
  | a, .zero n => some (.zero (a.sign != n))
  | a, b => some (.inf (a.sign != b.sign))

/-- The result of an operation whose exact result is a value, rounded where it is a finite number other than zero. -/
def Fmt.roundValue (F : Fmt) (m : RMode) : FVal → BitVec F.width × FFlags
  | .nan _ => F.nanResult false
  | .inf n => (F.inf n, flagsNone)
  | .zero n => (F.zero n, flagsNone)
  | .fin v => F.round m (.rat v)

/-- `F.mul` (R283). -/
def Fmt.mul (F : Fmt) (m : RMode) (a b : BitVec F.width) : BitVec F.width × FFlags :=
  if (F.value a).isNaN || (F.value b).isNaN then F.nanResult ((F.value a).isSNaN || (F.value b).isSNaN)
  else
    match (F.value a).mul (F.value b) with
    | none => F.nanResult true
    | some v => F.roundValue m v

/-- The quotient of two values that are not NaNs: `none` where it is invalid (zero by zero, infinity by infinity), else
the exact quotient and the flags of the division itself: DZ for a finite number other than zero by zero (R284). -/
def FVal.div : FVal → FVal → Option (FVal × FFlags)
  | .nan _, _ => none
  | _, .nan _ => none
  | .zero _, .zero _ => none
  | .inf _, .inf _ => none
  | .inf n, b => some (.inf (n != b.sign), flagsNone)
  | a, .inf n => some (.zero (a.sign != n), flagsNone)
  | .fin v, .zero n => some (.inf (decide (v < 0) != n), flagDZ)
  | .zero n, .fin w => some (.zero (n != decide (w < 0)), flagsNone)
  | .fin v, .fin w => some (.fin (v / w), flagsNone)

/-- `F.div` (R284). -/
def Fmt.div (F : Fmt) (m : RMode) (a b : BitVec F.width) : BitVec F.width × FFlags :=
  if (F.value a).isNaN || (F.value b).isNaN then F.nanResult ((F.value a).isSNaN || (F.value b).isSNaN)
  else
    match (F.value a).div (F.value b) with
    | none => F.nanResult true
    | some (v, fl) => ((F.roundValue m v).1, (F.roundValue m v).2 ||| fl)

/-- `F.sqrt` (R290). -/
def Fmt.sqrt (F : Fmt) (m : RMode) (a : BitVec F.width) : BitVec F.width × FFlags :=
  match F.value a with
  | .nan sig => F.nanResult sig
  | .zero n => (F.zero n, flagsNone)
  | .inf n => if n then F.nanResult true else (F.inf false, flagsNone)
  | .fin v => if v < 0 then F.nanResult true else F.round m (.root v)

/-- `F.fma(m, a, b, c, np, nc)`: `(-1)^np * (a * b) + (-1)^nc * c` with one rounding; infinity times zero is invalid even
when `c` is a NaN (R277, section 3 of 46_rv32f.md). -/
def Fmt.fma (F : Fmt) (m : RMode) (a b c : BitVec F.width) (np nc : Bool) : BitVec F.width × FFlags :=
  let va := F.value a
  let vb := F.value b
  let vc := F.value c
  if va.isNaN || vb.isNaN then F.nanResult (va.isSNaN || vb.isSNaN || vc.isSNaN)
  else
    match va.mul vb with
    | none => F.nanResult true
    | some p => if vc.isNaN then F.nanResult vc.isSNaN else F.addValues m (p.negIf np) (vc.negIf nc)

/-- The pattern with its sign bit replaced by `neg` (R285 to R287). -/
def Fmt.withSign (F : Fmt) (neg : Bool) (a : BitVec F.width) : BitVec F.width :=
  F.signed neg (a.toNat % 2 ^ (F.width - 1))

/-- FMIN (R288): the smaller operand bit for bit, -0 less than +0, a NaN only when both are. -/
def Fmt.min (F : Fmt) (a b : BitVec F.width) : BitVec F.width × FFlags :=
  let va := F.value a
  let vb := F.value b
  (if va.isNaN && vb.isNaN then F.canonicalNaN
    else if va.isNaN then b
    else if vb.isNaN then a
    else if va.lt vb then a
    else if vb.lt va then b
    else if a.msb then a else b,
   nvIf (va.isSNaN || vb.isSNaN))

/-- FMAX (R289): the greater operand bit for bit, +0 greater than -0, a NaN only when both are. -/
def Fmt.max (F : Fmt) (a b : BitVec F.width) : BitVec F.width × FFlags :=
  let va := F.value a
  let vb := F.value b
  (if va.isNaN && vb.isNaN then F.canonicalNaN
    else if va.isNaN then b
    else if vb.isNaN then a
    else if vb.lt va then a
    else if va.lt vb then b
    else if a.msb then b else a,
   nvIf (va.isSNaN || vb.isSNaN))

/-- FLE: the truth value and the flags; a signalling comparison (R291). -/
def Fmt.le (F : Fmt) (a b : BitVec F.width) : Bool × FFlags :=
  let va := F.value a
  let vb := F.value b
  if va.isNaN || vb.isNaN then (false, flagNV) else (va.lt vb || va.numEq vb, flagsNone)

/-- FLT: the truth value and the flags; a signalling comparison (R292). -/
def Fmt.lt (F : Fmt) (a b : BitVec F.width) : Bool × FFlags :=
  let va := F.value a
  let vb := F.value b
  if va.isNaN || vb.isNaN then (false, flagNV) else (va.lt vb, flagsNone)

/-- FEQ: the truth value and the flags; a quiet comparison (R293). -/
def Fmt.eq (F : Fmt) (a b : BitVec F.width) : Bool × FFlags :=
  ((F.value a).numEq (F.value b), nvIf ((F.value a).isSNaN || (F.value b).isSNaN))

/-- `F.toInt(m, a, lo, hi)` (R301): the range is tested on the rounded value. -/
def Fmt.toInt (F : Fmt) (m : RMode) (a : BitVec F.width) (lo hi : Int) : Int × FFlags :=
  match F.value a with
  | .nan _ => (hi, flagNV)
  | .inf n => (if n then lo else hi, flagNV)
  | .zero _ => (0, flagsNone)
  | .fin v =>
    let n := (Exact.rat v).roundTo m 0
    if n.1 < lo then (lo, flagNV) else if hi < n.1 then (hi, flagNV) else (n.1, nxIf n.2)

/-- The conversion of an integer: +0 for zero, else the integer rounded (R296, R297). -/
def Fmt.ofInt (F : Fmt) (m : RMode) (v : Int) : BitVec F.width × FFlags :=
  if v = 0 then (F.zero false, flagsNone) else F.round m (.rat (v : Rat))

/-- FCLASS: the number of the class of a pattern (R299). -/
def Fmt.classOf (F : Fmt) (a : BitVec F.width) : Nat :=
  match F.value a with
  | .inf n => if n then 0 else 7
  | .fin v =>
    if v < 0 then if -v < pow2 F.emin then 2 else 1
    else if v < pow2 F.emin then 5 else 6
  | .zero n => if n then 3 else 4
  | .nan sig => if sig then 8 else 9

end Sys2Proof.Machine
end

