-- ==== Sys2Proof/Machine/Rv32f.lean ====
section
/-! DEFINITION. The meanings of RV32F: single precision (46_rv32f.md). -/
namespace Sys2Proof.Machine

/-- The result of a conversion to an `n`-bit integer as it is written to `rd`: sign-extended from bit `n - 1`, also for
the unsigned conversions (R294, R295, R301, R321). -/
def toIntReg (n : Nat) (r : Int × FFlags) : DWord × FFlags := ((BitVec.ofInt n r.1).signExtend 64, r.2)

/-- FLW: load single precision, boxed, uninterpreted (R275). -/
def execFlw (rd : FReg) (rs1 : XReg) (imm : BitVec 12) (s : State) : Res :=
  load s (s.ea rs1 imm) 4 fun v => s.finishF32 rd v

/-- FSW: store the low 32 bits, no boxing check (R276). -/
def execFsw (rs2 : FReg) (rs1 : XReg) (imm : BitVec 12) (s : State) : Res :=
  store s (s.ea rs1 imm) 4 (s.rF rs2)

/-- FMADD.S: `rs1 * rs2 + rs3` with one rounding (R277). -/
def execFmaddS (rd rs1 rs2 rs3 : FReg) (rm : Rm) (s : State) : Res :=
  withRm s (.fmaddS rd rs1 rs2 rs3 rm) rm fun m =>
    s.finishF32Flags rd (Fmt.f32.fma m (s.rF32 rs1) (s.rF32 rs2) (s.rF32 rs3) false false)

/-- FMSUB.S: `rs1 * rs2 - rs3` with one rounding (R278). -/
def execFmsubS (rd rs1 rs2 rs3 : FReg) (rm : Rm) (s : State) : Res :=
  withRm s (.fmsubS rd rs1 rs2 rs3 rm) rm fun m =>
    s.finishF32Flags rd (Fmt.f32.fma m (s.rF32 rs1) (s.rF32 rs2) (s.rF32 rs3) false true)

/-- FNMSUB.S: `-(rs1 * rs2) + rs3` with one rounding (R279). -/
def execFnmsubS (rd rs1 rs2 rs3 : FReg) (rm : Rm) (s : State) : Res :=
  withRm s (.fnmsubS rd rs1 rs2 rs3 rm) rm fun m =>
    s.finishF32Flags rd (Fmt.f32.fma m (s.rF32 rs1) (s.rF32 rs2) (s.rF32 rs3) true false)

/-- FNMADD.S: `-(rs1 * rs2) - rs3` with one rounding (R280). -/
def execFnmaddS (rd rs1 rs2 rs3 : FReg) (rm : Rm) (s : State) : Res :=
  withRm s (.fnmaddS rd rs1 rs2 rs3 rm) rm fun m =>
    s.finishF32Flags rd (Fmt.f32.fma m (s.rF32 rs1) (s.rF32 rs2) (s.rF32 rs3) true true)

/-- FADD.S: sum (R281). -/
def execFaddS (rd rs1 rs2 : FReg) (rm : Rm) (s : State) : Res :=
  withRm s (.faddS rd rs1 rs2 rm) rm fun m => s.finishF32Flags rd (Fmt.f32.add m (s.rF32 rs1) (s.rF32 rs2))

/-- FSUB.S: difference (R282). -/
def execFsubS (rd rs1 rs2 : FReg) (rm : Rm) (s : State) : Res :=
  withRm s (.fsubS rd rs1 rs2 rm) rm fun m => s.finishF32Flags rd (Fmt.f32.sub m (s.rF32 rs1) (s.rF32 rs2))

/-- FMUL.S: product (R283). -/
def execFmulS (rd rs1 rs2 : FReg) (rm : Rm) (s : State) : Res :=
  withRm s (.fmulS rd rs1 rs2 rm) rm fun m => s.finishF32Flags rd (Fmt.f32.mul m (s.rF32 rs1) (s.rF32 rs2))

/-- FDIV.S: quotient (R284). -/
def execFdivS (rd rs1 rs2 : FReg) (rm : Rm) (s : State) : Res :=
  withRm s (.fdivS rd rs1 rs2 rm) rm fun m => s.finishF32Flags rd (Fmt.f32.div m (s.rF32 rs1) (s.rF32 rs2))

/-- FSGNJ.S: rs1 with the sign of rs2 (R285). -/
def execFsgnjS (rd rs1 rs2 : FReg) (s : State) : Res :=
  s.finishF32 rd (Fmt.f32.withSign (s.rF32 rs2).msb (s.rF32 rs1))

/-- FSGNJN.S: rs1 with the inverted sign of rs2 (R286). -/
def execFsgnjnS (rd rs1 rs2 : FReg) (s : State) : Res :=
  s.finishF32 rd (Fmt.f32.withSign (!(s.rF32 rs2).msb) (s.rF32 rs1))

/-- FSGNJX.S: rs1 with the exclusive-or of the signs (R287). -/
def execFsgnjxS (rd rs1 rs2 : FReg) (s : State) : Res :=
  s.finishF32 rd (Fmt.f32.withSign ((s.rF32 rs1).msb != (s.rF32 rs2).msb) (s.rF32 rs1))

/-- FMIN.S: minimum (R288). -/
def execFminS (rd rs1 rs2 : FReg) (s : State) : Res :=
  s.finishF32Flags rd (Fmt.f32.min (s.rF32 rs1) (s.rF32 rs2))

/-- FMAX.S: maximum (R289). -/
def execFmaxS (rd rs1 rs2 : FReg) (s : State) : Res :=
  s.finishF32Flags rd (Fmt.f32.max (s.rF32 rs1) (s.rF32 rs2))

/-- FSQRT.S: square root (R290). -/
def execFsqrtS (rd rs1 : FReg) (rm : Rm) (s : State) : Res :=
  withRm s (.fsqrtS rd rs1 rm) rm fun m => s.finishF32Flags rd (Fmt.f32.sqrt m (s.rF32 rs1))

/-- FLE.S: less than or equal (R291). -/
def execFleS (rd : XReg) (rs1 rs2 : FReg) (s : State) : Res :=
  s.finishXFlags rd (s.boolX (Fmt.f32.le (s.rF32 rs1) (s.rF32 rs2)).1, (Fmt.f32.le (s.rF32 rs1) (s.rF32 rs2)).2)

/-- FLT.S: less than (R292). -/
def execFltS (rd : XReg) (rs1 rs2 : FReg) (s : State) : Res :=
  s.finishXFlags rd (s.boolX (Fmt.f32.lt (s.rF32 rs1) (s.rF32 rs2)).1, (Fmt.f32.lt (s.rF32 rs1) (s.rF32 rs2)).2)

/-- FEQ.S: equal (R293). -/
def execFeqS (rd : XReg) (rs1 rs2 : FReg) (s : State) : Res :=
  s.finishXFlags rd (s.boolX (Fmt.f32.eq (s.rF32 rs1) (s.rF32 rs2)).1, (Fmt.f32.eq (s.rF32 rs1) (s.rF32 rs2)).2)

/-- FCVT.W.S: to signed word, saturated (R294). -/
def execFcvtWS (rd : XReg) (rs1 : FReg) (rm : Rm) (s : State) : Res :=
  withRm s (.fcvtWS rd rs1 rm) rm fun m =>
    s.finishXFlags rd (toIntReg 32 (Fmt.f32.toInt m (s.rF32 rs1) (-2 ^ 31) (2 ^ 31 - 1)))

/-- FCVT.WU.S: to unsigned word, saturated (R295). -/
def execFcvtWuS (rd : XReg) (rs1 : FReg) (rm : Rm) (s : State) : Res :=
  withRm s (.fcvtWuS rd rs1 rm) rm fun m =>
    s.finishXFlags rd (toIntReg 32 (Fmt.f32.toInt m (s.rF32 rs1) 0 (2 ^ 32 - 1)))

/-- FCVT.S.W: from signed word (R296). -/
def execFcvtSW (rd : FReg) (rs1 : XReg) (rm : Rm) (s : State) : Res :=
  withRm s (.fcvtSW rd rs1 rm) rm fun m => s.finishF32Flags rd (Fmt.f32.ofInt m (s.rW rs1).toInt)

/-- FCVT.S.WU: from unsigned word (R297). -/
def execFcvtSWu (rd : FReg) (rs1 : XReg) (rm : Rm) (s : State) : Res :=
  withRm s (.fcvtSWu rd rs1 rm) rm fun m => s.finishF32Flags rd (Fmt.f32.ofInt m ((s.rW rs1).toNat : Int))

/-- FMV.X.S: move the low 32 bits to an integer register, sign-extended, no boxing check (R298). -/
def execFmvXS (rd : XReg) (rs1 : FReg) (s : State) : Res :=
  s.finishX rd (((s.rF rs1).extractLsb' 0 32).signExtend s.cfg.xlen.bits)

/-- FCLASS.S: classify: one bit set (R299). -/
def execFclassS (rd : XReg) (rs1 : FReg) (s : State) : Res :=
  s.finishX rd (BitVec.ofNat s.cfg.xlen.bits (2 ^ Fmt.f32.classOf (s.rF32 rs1)))

/-- FMV.S.X: move the low word of an integer register, boxed (R300). -/
def execFmvSX (rd : FReg) (rs1 : XReg) (s : State) : Res :=
  s.finishF32 rd (s.rW rs1)

end Sys2Proof.Machine
end

