-- ==== Sys2Proof/Machine/Rv32d.lean ====
section
/-! DEFINITION. The meanings of RV32D: double precision (48_rv32d.md). -/
namespace Sys2Proof.Machine

/-- FLD: load double precision, uninterpreted (R331). -/
def execFld (rd : FReg) (rs1 : XReg) (imm : BitVec 12) (s : State) : Res :=
  load s (s.ea rs1 imm) 8 fun v => s.finishF rd v

/-- FSD: store all 64 bits (R332). -/
def execFsd (rs2 : FReg) (rs1 : XReg) (imm : BitVec 12) (s : State) : Res :=
  store s (s.ea rs1 imm) 8 (s.rF rs2)

/-- FMADD.D: `rs1 * rs2 + rs3` with one rounding (R333). -/
def execFmaddD (rd rs1 rs2 rs3 : FReg) (rm : Rm) (s : State) : Res :=
  withRm s (.fmaddD rd rs1 rs2 rs3 rm) rm fun m =>
    s.finishF64Flags rd (Fmt.f64.fma m (s.rF rs1) (s.rF rs2) (s.rF rs3) false false)

/-- FMSUB.D: `rs1 * rs2 - rs3` with one rounding (R334). -/
def execFmsubD (rd rs1 rs2 rs3 : FReg) (rm : Rm) (s : State) : Res :=
  withRm s (.fmsubD rd rs1 rs2 rs3 rm) rm fun m =>
    s.finishF64Flags rd (Fmt.f64.fma m (s.rF rs1) (s.rF rs2) (s.rF rs3) false true)

/-- FNMSUB.D: `-(rs1 * rs2) + rs3` with one rounding (R335). -/
def execFnmsubD (rd rs1 rs2 rs3 : FReg) (rm : Rm) (s : State) : Res :=
  withRm s (.fnmsubD rd rs1 rs2 rs3 rm) rm fun m =>
    s.finishF64Flags rd (Fmt.f64.fma m (s.rF rs1) (s.rF rs2) (s.rF rs3) true false)

/-- FNMADD.D: `-(rs1 * rs2) - rs3` with one rounding (R336). -/
def execFnmaddD (rd rs1 rs2 rs3 : FReg) (rm : Rm) (s : State) : Res :=
  withRm s (.fnmaddD rd rs1 rs2 rs3 rm) rm fun m =>
    s.finishF64Flags rd (Fmt.f64.fma m (s.rF rs1) (s.rF rs2) (s.rF rs3) true true)

/-- FADD.D: sum (R337). -/
def execFaddD (rd rs1 rs2 : FReg) (rm : Rm) (s : State) : Res :=
  withRm s (.faddD rd rs1 rs2 rm) rm fun m => s.finishF64Flags rd (Fmt.f64.add m (s.rF rs1) (s.rF rs2))

/-- FSUB.D: difference (R338). -/
def execFsubD (rd rs1 rs2 : FReg) (rm : Rm) (s : State) : Res :=
  withRm s (.fsubD rd rs1 rs2 rm) rm fun m => s.finishF64Flags rd (Fmt.f64.sub m (s.rF rs1) (s.rF rs2))

/-- FMUL.D: product (R339). -/
def execFmulD (rd rs1 rs2 : FReg) (rm : Rm) (s : State) : Res :=
  withRm s (.fmulD rd rs1 rs2 rm) rm fun m => s.finishF64Flags rd (Fmt.f64.mul m (s.rF rs1) (s.rF rs2))

/-- FDIV.D: quotient (R340). -/
def execFdivD (rd rs1 rs2 : FReg) (rm : Rm) (s : State) : Res :=
  withRm s (.fdivD rd rs1 rs2 rm) rm fun m => s.finishF64Flags rd (Fmt.f64.div m (s.rF rs1) (s.rF rs2))

/-- FSGNJ.D: rs1 with the sign of rs2 (R341). -/
def execFsgnjD (rd rs1 rs2 : FReg) (s : State) : Res :=
  s.finishF rd (Fmt.f64.withSign (s.rF rs2).msb (s.rF rs1))

/-- FSGNJN.D: rs1 with the inverted sign of rs2 (R342). -/
def execFsgnjnD (rd rs1 rs2 : FReg) (s : State) : Res :=
  s.finishF rd (Fmt.f64.withSign (!(s.rF rs2).msb) (s.rF rs1))

/-- FSGNJX.D: rs1 with the exclusive-or of the signs (R343). -/
def execFsgnjxD (rd rs1 rs2 : FReg) (s : State) : Res :=
  s.finishF rd (Fmt.f64.withSign ((s.rF rs1).msb != (s.rF rs2).msb) (s.rF rs1))

/-- FMIN.D: minimum (R344). -/
def execFminD (rd rs1 rs2 : FReg) (s : State) : Res :=
  s.finishF64Flags rd (Fmt.f64.min (s.rF rs1) (s.rF rs2))

/-- FMAX.D: maximum (R345). -/
def execFmaxD (rd rs1 rs2 : FReg) (s : State) : Res :=
  s.finishF64Flags rd (Fmt.f64.max (s.rF rs1) (s.rF rs2))

/-- FSQRT.D: square root (R346). -/
def execFsqrtD (rd rs1 : FReg) (rm : Rm) (s : State) : Res :=
  withRm s (.fsqrtD rd rs1 rm) rm fun m => s.finishF64Flags rd (Fmt.f64.sqrt m (s.rF rs1))

/-- FLE.D: less than or equal (R347). -/
def execFleD (rd : XReg) (rs1 rs2 : FReg) (s : State) : Res :=
  s.finishXFlags rd (s.boolX (Fmt.f64.le (s.rF rs1) (s.rF rs2)).1, (Fmt.f64.le (s.rF rs1) (s.rF rs2)).2)

/-- FLT.D: less than (R348). -/
def execFltD (rd : XReg) (rs1 rs2 : FReg) (s : State) : Res :=
  s.finishXFlags rd (s.boolX (Fmt.f64.lt (s.rF rs1) (s.rF rs2)).1, (Fmt.f64.lt (s.rF rs1) (s.rF rs2)).2)

/-- FEQ.D: equal (R349). -/
def execFeqD (rd : XReg) (rs1 rs2 : FReg) (s : State) : Res :=
  s.finishXFlags rd (s.boolX (Fmt.f64.eq (s.rF rs1) (s.rF rs2)).1, (Fmt.f64.eq (s.rF rs1) (s.rF rs2)).2)

/-- FCVT.W.D: to signed word, saturated (R350). -/
def execFcvtWD (rd : XReg) (rs1 : FReg) (rm : Rm) (s : State) : Res :=
  withRm s (.fcvtWD rd rs1 rm) rm fun m =>
    s.finishXFlags rd (toIntReg 32 (Fmt.f64.toInt m (s.rF rs1) (-2 ^ 31) (2 ^ 31 - 1)))

/-- FCVT.WU.D: to unsigned word, saturated (R351). -/
def execFcvtWuD (rd : XReg) (rs1 : FReg) (rm : Rm) (s : State) : Res :=
  withRm s (.fcvtWuD rd rs1 rm) rm fun m =>
    s.finishXFlags rd (toIntReg 32 (Fmt.f64.toInt m (s.rF rs1) 0 (2 ^ 32 - 1)))

/-- FCVT.D.W: from signed word (R352). -/
def execFcvtDW (rd : FReg) (rs1 : XReg) (rm : Rm) (s : State) : Res :=
  withRm s (.fcvtDW rd rs1 rm) rm fun m => s.finishF64Flags rd (Fmt.f64.ofInt m (s.rW rs1).toInt)

/-- FCVT.D.WU: from unsigned word (R353). -/
def execFcvtDWu (rd : FReg) (rs1 : XReg) (rm : Rm) (s : State) : Res :=
  withRm s (.fcvtDWu rd rs1 rm) rm fun m => s.finishF64Flags rd (Fmt.f64.ofInt m ((s.rW rs1).toNat : Int))

/-- FCLASS.D: classify: one bit set (R354). -/
def execFclassD (rd : XReg) (rs1 : FReg) (s : State) : Res :=
  s.finishX rd (BitVec.ofNat s.cfg.xlen.bits (2 ^ Fmt.f64.classOf (s.rF rs1)))

end Sys2Proof.Machine
end

