-- ==== Sys2Proof/Machine/Rv32i.lean ====
section
/-! DEFINITION. The meanings of RV32I: the base integer instructions (40_rv32i.md). -/
namespace Sys2Proof.Machine

/-- The effect of FENCE besides the advance: none that one hart can observe (R69, R168; log entry 27). -/
def fenceEffect (_pred _succ : BitVec 4) (s : State) : State := s

/-- The effect of FENCE.I besides the advance: every later fetch sees every earlier store (R72, R169). -/
def fetchFence (s : State) : State := { s with unfenced := [] }

/-- LUI: load upper immediate (R131). -/
def execLui (rd : XReg) (imm : BitVec 20) (s : State) : Res :=
  s.finishX rd (s.immUpper imm)

/-- AUIPC: add upper immediate to pc (R132). -/
def execAuipc (rd : XReg) (imm : BitVec 20) (s : State) : Res :=
  s.finishX rd (s.rPc + s.immUpper imm)

/-- JAL: jump and link: to `pc + imm` (R133). -/
def execJal (rd : XReg) (off : BitVec 21) (s : State) : Res :=
  jump s rd (s.rPc + off.signExtend s.cfg.xlen.bits)

/-- JALR: jump and link register: to `(x[rs1] + imm) & ~1` (R134). -/
def execJalr (rd rs1 : XReg) (imm : BitVec 12) (s : State) : Res :=
  jump s rd (s.ea rs1 imm &&& ~~~1)

/-- BEQ: branch if equal (R135). -/
def execBeq (rs1 rs2 : XReg) (off : BitVec 13) (s : State) : Res :=
  branch s (s.rX rs1 == s.rX rs2) off

/-- BNE: branch if not equal (R136). -/
def execBne (rs1 rs2 : XReg) (off : BitVec 13) (s : State) : Res :=
  branch s (s.rX rs1 != s.rX rs2) off

/-- BLT: branch if less than, signed (R137). -/
def execBlt (rs1 rs2 : XReg) (off : BitVec 13) (s : State) : Res :=
  branch s ((s.rX rs1).slt (s.rX rs2)) off

/-- BGE: branch if greater than or equal, signed (R138). -/
def execBge (rs1 rs2 : XReg) (off : BitVec 13) (s : State) : Res :=
  branch s (!(s.rX rs1).slt (s.rX rs2)) off

/-- BLTU: branch if less than, unsigned (R139). -/
def execBltu (rs1 rs2 : XReg) (off : BitVec 13) (s : State) : Res :=
  branch s ((s.rX rs1).ult (s.rX rs2)) off

/-- BGEU: branch if greater than or equal, unsigned (R140). -/
def execBgeu (rs1 rs2 : XReg) (off : BitVec 13) (s : State) : Res :=
  branch s (!(s.rX rs1).ult (s.rX rs2)) off

/-- LB: load byte, sign-extended (R141). -/
def execLb (rd rs1 : XReg) (imm : BitVec 12) (s : State) : Res :=
  load s (s.ea rs1 imm) 1 fun v => s.finishX rd (v.signExtend s.cfg.xlen.bits)

/-- LH: load halfword, sign-extended (R142). -/
def execLh (rd rs1 : XReg) (imm : BitVec 12) (s : State) : Res :=
  load s (s.ea rs1 imm) 2 fun v => s.finishX rd (v.signExtend s.cfg.xlen.bits)

/-- LW: load word, sign-extended (R143). -/
def execLw (rd rs1 : XReg) (imm : BitVec 12) (s : State) : Res :=
  load s (s.ea rs1 imm) 4 fun v => s.finishX rd (v.signExtend s.cfg.xlen.bits)

/-- LBU: load byte, zero-extended (R144). -/
def execLbu (rd rs1 : XReg) (imm : BitVec 12) (s : State) : Res :=
  load s (s.ea rs1 imm) 1 fun v => s.finishX rd (v.setWidth s.cfg.xlen.bits)

/-- LHU: load halfword, zero-extended (R145). -/
def execLhu (rd rs1 : XReg) (imm : BitVec 12) (s : State) : Res :=
  load s (s.ea rs1 imm) 2 fun v => s.finishX rd (v.setWidth s.cfg.xlen.bits)

/-- SB: store byte (R146). -/
def execSb (rs2 rs1 : XReg) (imm : BitVec 12) (s : State) : Res :=
  store s (s.ea rs1 imm) 1 (s.rX rs2)

/-- SH: store halfword (R147). -/
def execSh (rs2 rs1 : XReg) (imm : BitVec 12) (s : State) : Res :=
  store s (s.ea rs1 imm) 2 (s.rX rs2)

/-- SW: store word (R148). -/
def execSw (rs2 rs1 : XReg) (imm : BitVec 12) (s : State) : Res :=
  store s (s.ea rs1 imm) 4 (s.rX rs2)

/-- ADDI: add immediate (R149). -/
def execAddi (rd rs1 : XReg) (imm : BitVec 12) (s : State) : Res :=
  s.finishX rd (s.rX rs1 + s.imm12 imm)

/-- SLTI: set if less than immediate, signed (R150). -/
def execSlti (rd rs1 : XReg) (imm : BitVec 12) (s : State) : Res :=
  s.finishX rd (s.boolX ((s.rX rs1).slt (s.imm12 imm)))

/-- SLTIU: set if less than immediate, unsigned after sign extension (R151). -/
def execSltiu (rd rs1 : XReg) (imm : BitVec 12) (s : State) : Res :=
  s.finishX rd (s.boolX ((s.rX rs1).ult (s.imm12 imm)))

/-- XORI: exclusive-or immediate (R152). -/
def execXori (rd rs1 : XReg) (imm : BitVec 12) (s : State) : Res :=
  s.finishX rd (s.rX rs1 ^^^ s.imm12 imm)

/-- ORI: or immediate (R153). -/
def execOri (rd rs1 : XReg) (imm : BitVec 12) (s : State) : Res :=
  s.finishX rd (s.rX rs1 ||| s.imm12 imm)

/-- ANDI: and immediate (R154). -/
def execAndi (rd rs1 : XReg) (imm : BitVec 12) (s : State) : Res :=
  s.finishX rd (s.rX rs1 &&& s.imm12 imm)

/-- SLLI: shift left logical immediate, the row of XLEN = 32 (R155). -/
def execSlli32 (rd rs1 : XReg) (shamt : BitVec 5) (s : State) : Res :=
  s.finishX rd (s.rX rs1 <<< shamt.toNat)

/-- SRLI: shift right logical immediate, the row of XLEN = 32 (R156). -/
def execSrli32 (rd rs1 : XReg) (shamt : BitVec 5) (s : State) : Res :=
  s.finishX rd (s.rX rs1 >>> shamt.toNat)

/-- SRAI: shift right arithmetic immediate, the row of XLEN = 32 (R157). -/
def execSrai32 (rd rs1 : XReg) (shamt : BitVec 5) (s : State) : Res :=
  s.finishX rd ((s.rX rs1).sshiftRight shamt.toNat)

/-- ADD: addition modulo 2^XLEN (R158). -/
def execAdd (rd rs1 rs2 : XReg) (s : State) : Res :=
  s.finishX rd (s.rX rs1 + s.rX rs2)

/-- SUB: subtraction modulo 2^XLEN (R159). -/
def execSub (rd rs1 rs2 : XReg) (s : State) : Res :=
  s.finishX rd (s.rX rs1 - s.rX rs2)

/-- SLL: shift left logical (R160). -/
def execSll (rd rs1 rs2 : XReg) (s : State) : Res :=
  s.finishX rd (s.rX rs1 <<< s.shiftAmount rs2)

/-- SLT: set if less than, signed (R161). -/
def execSlt (rd rs1 rs2 : XReg) (s : State) : Res :=
  s.finishX rd (s.boolX ((s.rX rs1).slt (s.rX rs2)))

/-- SLTU: set if less than, unsigned (R162). -/
def execSltu (rd rs1 rs2 : XReg) (s : State) : Res :=
  s.finishX rd (s.boolX ((s.rX rs1).ult (s.rX rs2)))

/-- XOR: exclusive-or (R163). -/
def execXor (rd rs1 rs2 : XReg) (s : State) : Res :=
  s.finishX rd (s.rX rs1 ^^^ s.rX rs2)

/-- SRL: shift right logical (R164). -/
def execSrl (rd rs1 rs2 : XReg) (s : State) : Res :=
  s.finishX rd (s.rX rs1 >>> s.shiftAmount rs2)

/-- SRA: shift right arithmetic (R165). -/
def execSra (rd rs1 rs2 : XReg) (s : State) : Res :=
  s.finishX rd ((s.rX rs1).sshiftRight (s.shiftAmount rs2))

/-- OR: or (R166). -/
def execOr (rd rs1 rs2 : XReg) (s : State) : Res :=
  s.finishX rd (s.rX rs1 ||| s.rX rs2)

/-- AND: and (R167). -/
def execAnd (rd rs1 rs2 : XReg) (s : State) : Res :=
  s.finishX rd (s.rX rs1 &&& s.rX rs2)

/-- FENCE: memory fence: with one hart it has no observable effect (R69; log entry 27) (R168). -/
def execFence (pred succ : BitVec 4) (s : State) : Res :=
  .next (fenceEffect pred succ s).advance

/-- FENCE.I: instruction-fetch fence: later fetches see every earlier store (R72) (R169). -/
def execFenceI (s : State) : Res :=
  .next (fetchFence s).advance

end Sys2Proof.Machine
end

