-- ==== Sys2Proof/Machine/Rv32m.lean ====
section
/-! DEFINITION. The meanings of RV32M: multiply and divide (42_rv32m.md). -/
namespace Sys2Proof.Machine

/-- Signed quotient toward zero with the results of R209: all ones by zero, the dividend on overflow (R205). -/
def divSigned {n : Nat} (a b : BitVec n) : BitVec n :=
  if b = 0 then BitVec.allOnes n
  else if a.toInt = -2 ^ (n - 1) ∧ b.toInt = -1 then a
  else BitVec.ofInt n (a.toInt.tdiv b.toInt)

/-- Unsigned quotient with the result of R209: all ones by zero (R206). -/
def divUnsigned {n : Nat} (a b : BitVec n) : BitVec n :=
  if b = 0 then BitVec.allOnes n else BitVec.ofNat n (a.toNat / b.toNat)

/-- Signed remainder, of the dividend's sign, with the results of R209: the dividend by zero, 0 on overflow (R207). -/
def remSigned {n : Nat} (a b : BitVec n) : BitVec n :=
  if b = 0 then a
  else if a.toInt = -2 ^ (n - 1) ∧ b.toInt = -1 then 0
  else BitVec.ofInt n (a.toInt - b.toInt * a.toInt.tdiv b.toInt)

/-- Unsigned remainder with the result of R209: the dividend by zero (R208). -/
def remUnsigned {n : Nat} (a b : BitVec n) : BitVec n :=
  if b = 0 then a else BitVec.ofNat n (a.toNat % b.toNat)

/-- MUL: the low half of the product (R201). -/
def execMul (rd rs1 rs2 : XReg) (s : State) : Res :=
  s.finishX rd (s.rX rs1 * s.rX rs2)

/-- MULH: the high half of the signed product (R202). -/
def execMulh (rd rs1 rs2 : XReg) (s : State) : Res :=
  s.finishX rd (BitVec.ofInt s.cfg.xlen.bits ((s.rX rs1).toInt * (s.rX rs2).toInt / 2 ^ s.cfg.xlen.bits))

/-- MULHSU: the high half of the product of a signed and an unsigned factor (R203). -/
def execMulhsu (rd rs1 rs2 : XReg) (s : State) : Res :=
  s.finishX rd (BitVec.ofInt s.cfg.xlen.bits ((s.rX rs1).toInt * ((s.rX rs2).toNat : Int) / 2 ^ s.cfg.xlen.bits))

/-- MULHU: the high half of the unsigned product (R204). -/
def execMulhu (rd rs1 rs2 : XReg) (s : State) : Res :=
  s.finishX rd (BitVec.ofNat s.cfg.xlen.bits ((s.rX rs1).toNat * (s.rX rs2).toNat / 2 ^ s.cfg.xlen.bits))

/-- DIV: signed quotient (R205). -/
def execDiv (rd rs1 rs2 : XReg) (s : State) : Res :=
  s.finishX rd (divSigned (s.rX rs1) (s.rX rs2))

/-- DIVU: unsigned quotient (R206). -/
def execDivu (rd rs1 rs2 : XReg) (s : State) : Res :=
  s.finishX rd (divUnsigned (s.rX rs1) (s.rX rs2))

/-- REM: signed remainder (R207). -/
def execRem (rd rs1 rs2 : XReg) (s : State) : Res :=
  s.finishX rd (remSigned (s.rX rs1) (s.rX rs2))

/-- REMU: unsigned remainder (R208). -/
def execRemu (rd rs1 rs2 : XReg) (s : State) : Res :=
  s.finishX rd (remUnsigned (s.rX rs1) (s.rX rs2))

end Sys2Proof.Machine
end

