-- ==== Sys2Proof/Machine/Rv64a.lean ====
section
/-! DEFINITION. The meanings of RV64A: atomic doubleword instructions (45_rv64a.md). -/
namespace Sys2Proof.Machine

/-- LR.D: load-reserved doubleword (R251). -/
def execLrD (rd rs1 : XReg) (aq rl : Bool) (s : State) : Res :=
  onRv64 s (.lrD rd rs1 aq rl) (loadReserved s rd (s.rX rs1) 8)

/-- SC.D: store-conditional doubleword (R252). -/
def execScD (rd rs2 rs1 : XReg) (aq rl : Bool) (s : State) : Res :=
  onRv64 s (.scD rd rs2 rs1 aq rl) (storeConditional s rd (s.rX rs1) 8 (s.rX rs2))

/-- AMOSWAP.D: atomic swap doubleword (R253). -/
def execAmoswapD (rd rs2 rs1 : XReg) (aq rl : Bool) (s : State) : Res :=
  onRv64 s (.amoswapD rd rs2 rs1 aq rl) (amo s rd (s.rX rs1) 8 (fun _ v => v) ((s.rX rs2).setWidth 64))

/-- AMOADD.D: atomic add doubleword (R254). -/
def execAmoaddD (rd rs2 rs1 : XReg) (aq rl : Bool) (s : State) : Res :=
  onRv64 s (.amoaddD rd rs2 rs1 aq rl) (amo s rd (s.rX rs1) 8 (fun old v => old + v) ((s.rX rs2).setWidth 64))

/-- AMOXOR.D: atomic exclusive-or doubleword (R255). -/
def execAmoxorD (rd rs2 rs1 : XReg) (aq rl : Bool) (s : State) : Res :=
  onRv64 s (.amoxorD rd rs2 rs1 aq rl) (amo s rd (s.rX rs1) 8 (fun old v => old ^^^ v) ((s.rX rs2).setWidth 64))

/-- AMOOR.D: atomic or doubleword (R256). -/
def execAmoorD (rd rs2 rs1 : XReg) (aq rl : Bool) (s : State) : Res :=
  onRv64 s (.amoorD rd rs2 rs1 aq rl) (amo s rd (s.rX rs1) 8 (fun old v => old ||| v) ((s.rX rs2).setWidth 64))

/-- AMOAND.D: atomic and doubleword (R257). -/
def execAmoandD (rd rs2 rs1 : XReg) (aq rl : Bool) (s : State) : Res :=
  onRv64 s (.amoandD rd rs2 rs1 aq rl) (amo s rd (s.rX rs1) 8 (fun old v => old &&& v) ((s.rX rs2).setWidth 64))

/-- AMOMIN.D: atomic signed minimum doubleword (R258). -/
def execAmominD (rd rs2 rs1 : XReg) (aq rl : Bool) (s : State) : Res :=
  onRv64 s (.amominD rd rs2 rs1 aq rl)
    (amo s rd (s.rX rs1) 8 (fun old v => if old.slt v then old else v) ((s.rX rs2).setWidth 64))

/-- AMOMAX.D: atomic signed maximum doubleword (R259). -/
def execAmomaxD (rd rs2 rs1 : XReg) (aq rl : Bool) (s : State) : Res :=
  onRv64 s (.amomaxD rd rs2 rs1 aq rl)
    (amo s rd (s.rX rs1) 8 (fun old v => if v.slt old then old else v) ((s.rX rs2).setWidth 64))

/-- AMOMINU.D: atomic unsigned minimum doubleword (R260). -/
def execAmominuD (rd rs2 rs1 : XReg) (aq rl : Bool) (s : State) : Res :=
  onRv64 s (.amominuD rd rs2 rs1 aq rl)
    (amo s rd (s.rX rs1) 8 (fun old v => if old.ult v then old else v) ((s.rX rs2).setWidth 64))

/-- AMOMAXU.D: atomic unsigned maximum doubleword (R261). -/
def execAmomaxuD (rd rs2 rs1 : XReg) (aq rl : Bool) (s : State) : Res :=
  onRv64 s (.amomaxuD rd rs2 rs1 aq rl)
    (amo s rd (s.rX rs1) 8 (fun old v => if v.ult old then old else v) ((s.rX rs2).setWidth 64))

end Sys2Proof.Machine
end

