-- ==== Sys2Proof/Machine/Rv64d.lean ====
section
/-! DEFINITION. The meanings of RV64D: double precision and 64-bit integers (49_rv64d.md). -/
namespace Sys2Proof.Machine

/-- FCVT.L.D: to signed doubleword, saturated (R371). -/
def execFcvtLD (rd : XReg) (rs1 : FReg) (rm : Rm) (s : State) : Res :=
  onRv64 s (.fcvtLD rd rs1 rm) (withRm s (.fcvtLD rd rs1 rm) rm fun m =>
    s.finishXFlags rd (toIntReg 64 (Fmt.f64.toInt m (s.rF rs1) (-2 ^ 63) (2 ^ 63 - 1))))

/-- FCVT.LU.D: to unsigned doubleword, saturated (R372). -/
def execFcvtLuD (rd : XReg) (rs1 : FReg) (rm : Rm) (s : State) : Res :=
  onRv64 s (.fcvtLuD rd rs1 rm) (withRm s (.fcvtLuD rd rs1 rm) rm fun m =>
    s.finishXFlags rd (toIntReg 64 (Fmt.f64.toInt m (s.rF rs1) 0 (2 ^ 64 - 1))))

/-- FCVT.D.L: from signed doubleword (R373). -/
def execFcvtDL (rd : FReg) (rs1 : XReg) (rm : Rm) (s : State) : Res :=
  onRv64 s (.fcvtDL rd rs1 rm) (withRm s (.fcvtDL rd rs1 rm) rm fun m =>
    s.finishF64Flags rd (Fmt.f64.ofInt m (s.rX rs1).toInt))

/-- FCVT.D.LU: from unsigned doubleword (R374). -/
def execFcvtDLu (rd : FReg) (rs1 : XReg) (rm : Rm) (s : State) : Res :=
  onRv64 s (.fcvtDLu rd rs1 rm) (withRm s (.fcvtDLu rd rs1 rm) rm fun m =>
    s.finishF64Flags rd (Fmt.f64.ofInt m ((s.rX rs1).toNat : Int)))

/-- FMV.X.D: move 64 bits to an integer register (R375). -/
def execFmvXD (rd : XReg) (rs1 : FReg) (s : State) : Res :=
  onRv64 s (.fmvXD rd rs1) (s.finishX rd (s.rF rs1))

/-- FMV.D.X: move 64 bits from an integer register (R376). -/
def execFmvDX (rd : FReg) (rs1 : XReg) (s : State) : Res :=
  onRv64 s (.fmvDX rd rs1) (s.finishF rd ((s.rX rs1).setWidth 64))

end Sys2Proof.Machine
end

