-- ==== Sys2Proof/Machine/Rv64f.lean ====
section
/-! DEFINITION. The meanings of RV64F: single precision and 64-bit integers (47_rv64f.md). -/
namespace Sys2Proof.Machine

/-- FCVT.L.S: to signed doubleword, saturated (R321). -/
def execFcvtLS (rd : XReg) (rs1 : FReg) (rm : Rm) (s : State) : Res :=
  onRv64 s (.fcvtLS rd rs1 rm) (withRm s (.fcvtLS rd rs1 rm) rm fun m =>
    s.finishXFlags rd (toIntReg 64 (Fmt.f32.toInt m (s.rF32 rs1) (-2 ^ 63) (2 ^ 63 - 1))))

/-- FCVT.LU.S: to unsigned doubleword, saturated (R322). -/
def execFcvtLuS (rd : XReg) (rs1 : FReg) (rm : Rm) (s : State) : Res :=
  onRv64 s (.fcvtLuS rd rs1 rm) (withRm s (.fcvtLuS rd rs1 rm) rm fun m =>
    s.finishXFlags rd (toIntReg 64 (Fmt.f32.toInt m (s.rF32 rs1) 0 (2 ^ 64 - 1))))

/-- FCVT.S.L: from signed doubleword (R323). -/
def execFcvtSL (rd : FReg) (rs1 : XReg) (rm : Rm) (s : State) : Res :=
  onRv64 s (.fcvtSL rd rs1 rm) (withRm s (.fcvtSL rd rs1 rm) rm fun m =>
    s.finishF32Flags rd (Fmt.f32.ofInt m (s.rX rs1).toInt))

/-- FCVT.S.LU: from unsigned doubleword (R324). -/
def execFcvtSLu (rd : FReg) (rs1 : XReg) (rm : Rm) (s : State) : Res :=
  onRv64 s (.fcvtSLu rd rs1 rm) (withRm s (.fcvtSLu rd rs1 rm) rm fun m =>
    s.finishF32Flags rd (Fmt.f32.ofInt m ((s.rX rs1).toNat : Int)))

end Sys2Proof.Machine
end

