-- ==== Sys2Proof/Machine/Rv64i.lean ====
section
/-! DEFINITION. The meanings of RV64I: the 64-bit additions to the base (41_rv64i.md). -/
namespace Sys2Proof.Machine

/-- LWU: load word, zero-extended (R181). -/
def execLwu (rd rs1 : XReg) (imm : BitVec 12) (s : State) : Res :=
  onRv64 s (.lwu rd rs1 imm) (load s (s.ea rs1 imm) 4 fun v => s.finishX rd (v.setWidth s.cfg.xlen.bits))

/-- LD: load doubleword (R182). -/
def execLd (rd rs1 : XReg) (imm : BitVec 12) (s : State) : Res :=
  onRv64 s (.ld rd rs1 imm) (load s (s.ea rs1 imm) 8 fun v => s.finishX rd v)

/-- SD: store doubleword (R183). -/
def execSd (rs2 rs1 : XReg) (imm : BitVec 12) (s : State) : Res :=
  onRv64 s (.sd rs2 rs1 imm) (store s (s.ea rs1 imm) 8 (s.rX rs2))

/-- SLLI: shift left logical immediate, the row of XLEN = 64 (R184). -/
def execSlli64 (rd rs1 : XReg) (shamt : BitVec 6) (s : State) : Res :=
  onRv64 s (.slli64 rd rs1 shamt) (s.finishX rd (s.rX rs1 <<< shamt.toNat))

/-- SRLI: shift right logical immediate, the row of XLEN = 64 (R185). -/
def execSrli64 (rd rs1 : XReg) (shamt : BitVec 6) (s : State) : Res :=
  onRv64 s (.srli64 rd rs1 shamt) (s.finishX rd (s.rX rs1 >>> shamt.toNat))

/-- SRAI: shift right arithmetic immediate, the row of XLEN = 64 (R186). -/
def execSrai64 (rd rs1 : XReg) (shamt : BitVec 6) (s : State) : Res :=
  onRv64 s (.srai64 rd rs1 shamt) (s.finishX rd ((s.rX rs1).sshiftRight shamt.toNat))

/-- ADDIW: add immediate word (R187). -/
def execAddiw (rd rs1 : XReg) (imm : BitVec 12) (s : State) : Res :=
  onRv64 s (.addiw rd rs1 imm) (s.finishW rd (s.rW rs1 + imm.signExtend 32))

/-- SLLIW: shift left logical immediate word (R188). -/
def execSlliw (rd rs1 : XReg) (shamt : BitVec 5) (s : State) : Res :=
  onRv64 s (.slliw rd rs1 shamt) (s.finishW rd (s.rW rs1 <<< shamt.toNat))

/-- SRLIW: shift right logical immediate word (R189). -/
def execSrliw (rd rs1 : XReg) (shamt : BitVec 5) (s : State) : Res :=
  onRv64 s (.srliw rd rs1 shamt) (s.finishW rd (s.rW rs1 >>> shamt.toNat))

/-- SRAIW: shift right arithmetic immediate word (R190). -/
def execSraiw (rd rs1 : XReg) (shamt : BitVec 5) (s : State) : Res :=
  onRv64 s (.sraiw rd rs1 shamt) (s.finishW rd ((s.rW rs1).sshiftRight shamt.toNat))

/-- ADDW: add word (R191). -/
def execAddw (rd rs1 rs2 : XReg) (s : State) : Res :=
  onRv64 s (.addw rd rs1 rs2) (s.finishW rd (s.rW rs1 + s.rW rs2))

/-- SUBW: subtract word (R192). -/
def execSubw (rd rs1 rs2 : XReg) (s : State) : Res :=
  onRv64 s (.subw rd rs1 rs2) (s.finishW rd (s.rW rs1 - s.rW rs2))

/-- SLLW: shift left logical word (R193). -/
def execSllw (rd rs1 rs2 : XReg) (s : State) : Res :=
  onRv64 s (.sllw rd rs1 rs2) (s.finishW rd (s.rW rs1 <<< s.shiftAmountW rs2))

/-- SRLW: shift right logical word (R194). -/
def execSrlw (rd rs1 rs2 : XReg) (s : State) : Res :=
  onRv64 s (.srlw rd rs1 rs2) (s.finishW rd (s.rW rs1 >>> s.shiftAmountW rs2))

/-- SRAW: shift right arithmetic word (R195). -/
def execSraw (rd rs1 rs2 : XReg) (s : State) : Res :=
  onRv64 s (.sraw rd rs1 rs2) (s.finishW rd ((s.rW rs1).sshiftRight (s.shiftAmountW rs2)))

end Sys2Proof.Machine
end

