-- ==== Sys2Proof/Machine/Rv64m.lean ====
section
/-! DEFINITION. The meanings of RV64M: word multiply and divide (43_rv64m.md). -/
namespace Sys2Proof.Machine

/-- MULW: multiply word (R216). -/
def execMulw (rd rs1 rs2 : XReg) (s : State) : Res :=
  onRv64 s (.mulw rd rs1 rs2) (s.finishW rd (s.rW rs1 * s.rW rs2))

/-- DIVW: divide word, signed (R217). -/
def execDivw (rd rs1 rs2 : XReg) (s : State) : Res :=
  onRv64 s (.divw rd rs1 rs2) (s.finishW rd (divSigned (s.rW rs1) (s.rW rs2)))

/-- DIVUW: divide word, unsigned (R218). -/
def execDivuw (rd rs1 rs2 : XReg) (s : State) : Res :=
  onRv64 s (.divuw rd rs1 rs2) (s.finishW rd (divUnsigned (s.rW rs1) (s.rW rs2)))

/-- REMW: remainder word, signed (R219). -/
def execRemw (rd rs1 rs2 : XReg) (s : State) : Res :=
  onRv64 s (.remw rd rs1 rs2) (s.finishW rd (remSigned (s.rW rs1) (s.rW rs2)))

/-- REMUW: remainder word, unsigned (R220). -/
def execRemuw (rd rs1 rs2 : XReg) (s : State) : Res :=
  onRv64 s (.remuw rd rs1 rs2) (s.finishW rd (remUnsigned (s.rW rs1) (s.rW rs2)))

end Sys2Proof.Machine
end

