-- ==== Sys2Proof/Machine/Cycle.lean ====
section
/-!
DEFINITION. One step of the hart (R11): the halt check, the fetch, the decoding, the instruction; and how a word is put
where the next step fetches it.
-/
namespace Sys2Proof.Machine

/-! ### Fetch (R52, R72) -/

/-- What a fetch sees of the byte at `a`, given the number of free draws taken so far, and how many are taken then: a byte
stored to since the last FENCE.I is any of its candidates, every other byte is what memory holds (R72; log entry 10). -/
def fetchByte (m : Memory) (u : Unfenced) (draws a : Nat) : Byte × Nat :=
  match u.lookup a with
  | none => (memByte m a, draws)
  | some cs => (cs.getD (Config.fetchPick draws % cs.length) (memByte m a), draws + 1)

/-- What a fetch sees of some bytes in order, and the draws taken. -/
def fetchBytes (m : Memory) (u : Unfenced) : Nat → List Nat → List Byte × Nat
  | draws, [] => ([], draws)
  | draws, a :: as =>
    ((fetchByte m u draws a).1 :: (fetchBytes m u (fetchByte m u draws a).2 as).1,
      (fetchBytes m u (fetchByte m u draws a).2 as).2)

/-- The addresses of the four bytes the next fetch reads (R52). -/
def State.fetchAddrs (s : State) : List Nat := byteAddrs s.rPc 4

/-- The bytes the next fetch reads and the draws taken then (R52, R72). -/
def State.fetch (s : State) : List Byte × Nat := fetchBytes s.mem s.unfenced s.fetchDraws s.fetchAddrs

/-- The pc is in HALT_SET (R397; log entry 25). -/
def State.atHalt (s : State) : Bool := s.cfg.haltSet.any fun h => h.setWidth s.cfg.xlen.bits == s.rPc

/-! ### The step (R11) -/

/-- Steps (3) and (4) of R11: the instruction of the fetched bytes runs; bytes that spell none raise IllegalInstruction
with the word as trap value (R110, R111). -/
def runBytes (s : State) (bs : List Byte) : Res :=
  match decodeBytes s.cfg.xlen bs with
  | .ok (i, _) => exec i s
  | .error (.noRow w) => raise s .illegalInstruction w
  | .error .truncated => raise s .instructionAccessFault s.rPc

/-- One step of the hart (R11, R386, R388, R397). A hart that has trapped or stopped takes no further step. DESIGN CHOICE: a
hart whose pc is in HALT_SET spends one call of the step on becoming stopped (log entry 28). -/
def cycle (s : State) : Res :=
  match s.status with
  | .trapped e tval pc => .fault (.hartTrapped e tval pc)
  | .stopped => .fault .hartStopped
  | .running =>
    if s.pc.toNat % 4 ≠ 0 then .refused .misalignedPc
    else if s.atHalt then .next { s with status := .stopped }
    else if s.fetchAddrs.all s.cfg.mapped then
      runBytes { s with fetchDraws := s.fetch.2 } s.fetch.1
    else raise s .instructionAccessFault s.rPc

/-! ### Placing a word -/

/-- Memory with the given cells set. -/
def placeCells : List Host.Cell → Memory → Memory
  | [], m => m
  | c :: cs, m => placeCells cs (memInsert c.1 c.2 m)

/-- `s` with the word `w` stored where the next step fetches, as a loader would put it there (R425): its four bytes in
memory and no older candidates for them, and all else the fetch needs: the hart running, the pc not in HALT_SET, the four
bytes in MEM_MAP. -/
def State.placeWord (s : State) (w : Word) : State :=
  { s with
    mem := placeCells (s.fetchAddrs.zip (bytesOfWord w)) s.mem
    unfenced := s.unfenced.filter fun c => !s.fetchAddrs.contains c.1
    status := .running
    cfg := { s.cfg with
      haltSet := s.cfg.haltSet.filter fun h => h.setWidth s.cfg.xlen.bits != s.rPc
      memMap := (s.fetchAddrs.filter fun a => !s.cfg.mapped a).map (⟨·, 1⟩) ++ s.cfg.memMap } }

end Sys2Proof.Machine
end

