-- ==== Sys2Proof/Machine/Step.lean ====
section
/-! DEFINITION. The step function and the host's way to put an instruction where the step fetches. -/
namespace Sys2Proof.Machine

/-- One step of the machine (R11). -/
def step : State → Host.Outcome State Fault Refusal := cycle

/-- `s` with the instruction of `nbits` bits `w` stored where `step` fetches its next instruction (log entry 14). -/
def State.withFetchWord (s : State) (nbits w : Nat) : State := s.placeWord (BitVec.ofNat 32 (w % 2 ^ nbits))

end Sys2Proof.Machine
end

