-- ==== Sys2Proof/Pseudo.lean ====
section
/-!
DEFINITION. The pseudo-instructions of the assembler and the register names (R22, R26, R120): conveniences of the reader, on
which no rule depends. Each pseudo-instruction is a name for a sequence of instructions of the opcode table.
-/
namespace Sys2Proof

/-- The assembler names of x0 to x31 (R22). -/
def xAbiNames : List String :=
  ["zero", "ra", "sp", "gp", "tp", "t0", "t1", "t2", "s0", "s1", "a0", "a1", "a2", "a3", "a4", "a5"] ++
  ["a6", "a7", "s2", "s3", "s4", "s5", "s6", "s7", "s8", "s9", "s10", "s11", "t3", "t4", "t5", "t6"]

/-- The assembler names of f0 to f31 (R26). -/
def fAbiNames : List String :=
  ["ft0", "ft1", "ft2", "ft3", "ft4", "ft5", "ft6", "ft7", "fs0", "fs1", "fa0", "fa1", "fa2", "fa3", "fa4", "fa5"] ++
  ["fa6", "fa7", "fs2", "fs3", "fs4", "fs5", "fs6", "fs7", "fs8", "fs9", "fs10", "fs11", "ft8", "ft9", "ft10", "ft11"]

/-- The assembler name of an integer register (R22). -/
def xAbiName (r : XReg) : String := xAbiNames.getD r.toNat ""

/-- The assembler name of a floating-point register (R26). -/
def fAbiName (r : FReg) : String := fAbiNames.getD r.toNat ""

/-- The pseudo-instructions of R120. An `off` is a byte offset from the first instruction of the expansion, of 13 bits for
a branch, 21 for a jump, 32 for a pair; `imm` is a 32-bit constant. -/
inductive Pseudo where
  | nop
  | liShort (rd : XReg) (imm : BitVec 12)
  | li (rd : XReg) (imm : BitVec 32)
  | mv (rd rs : XReg)
  | not (rd rs : XReg)
  | neg (rd rs : XReg)
  | negw (rd rs : XReg)
  | sextW (rd rs : XReg)
  | seqz (rd rs : XReg)
  | snez (rd rs : XReg)
  | sltz (rd rs : XReg)
  | sgtz (rd rs : XReg)
  | beqz (rs : XReg) (off : BitVec 13)
  | bnez (rs : XReg) (off : BitVec 13)
  | blez (rs : XReg) (off : BitVec 13)
  | bgez (rs : XReg) (off : BitVec 13)
  | bltz (rs : XReg) (off : BitVec 13)
  | bgtz (rs : XReg) (off : BitVec 13)
  | bgt (rs rt : XReg) (off : BitVec 13)
  | ble (rs rt : XReg) (off : BitVec 13)
  | bgtu (rs rt : XReg) (off : BitVec 13)
  | bleu (rs rt : XReg) (off : BitVec 13)
  | j (off : BitVec 21)
  | jal (off : BitVec 21)
  | jr (rs : XReg)
  | jalr (rs : XReg)
  | ret
  | call (off : BitVec 32)
  | tail (off : BitVec 32)
  | la (rd : XReg) (off : BitVec 32)
  | fence
  | fmvS (rd rs : FReg)
  | fmvD (rd rs : FReg)
  | fabsS (rd rs : FReg)
  | fabsD (rd rs : FReg)
  | fnegS (rd rs : FReg)
  | fnegD (rd rs : FReg)
deriving DecidableEq, Repr

/-- `hi20 = (imm + 0x800) >> 12` (R120). -/
def hi20 (imm : BitVec 32) : BitVec 20 := (imm + 0x800).extractLsb' 12 20

/-- `lo12 = imm - (hi20 << 12)`, the low 12 bits (R120). -/
def lo12 (imm : BitVec 32) : BitVec 12 := imm.extractLsb' 0 12

/-- The expansion of a pseudo-instruction (R120). -/
def Pseudo.expand (xl : XLen) : Pseudo → List Instr
  | .nop => [.addi 0 0 0]
  | .liShort rd imm => [.addi rd 0 imm]
  | .li rd imm =>
    match xl with
    | .rv32 => [.lui rd (hi20 imm), .addi rd rd (lo12 imm)]
    | .rv64 => [.lui rd (hi20 imm), .addiw rd rd (lo12 imm)]
  | .mv rd rs => [.addi rd rs 0]
  | .not rd rs => [.xori rd rs (-1)]
  | .neg rd rs => [.sub rd 0 rs]
  | .negw rd rs => [.subw rd 0 rs]
  | .sextW rd rs => [.addiw rd rs 0]
  | .seqz rd rs => [.sltiu rd rs 1]
  | .snez rd rs => [.sltu rd 0 rs]
  | .sltz rd rs => [.slt rd rs 0]
  | .sgtz rd rs => [.slt rd 0 rs]
  | .beqz rs off => [.beq rs 0 off]
  | .bnez rs off => [.bne rs 0 off]
  | .blez rs off => [.bge 0 rs off]
  | .bgez rs off => [.bge rs 0 off]
  | .bltz rs off => [.blt rs 0 off]
  | .bgtz rs off => [.blt 0 rs off]
  | .bgt rs rt off => [.blt rt rs off]
  | .ble rs rt off => [.bge rt rs off]
  | .bgtu rs rt off => [.bltu rt rs off]
  | .bleu rs rt off => [.bgeu rt rs off]
  | .j off => [.jal 0 off]
  | .jal off => [.jal 1 off]
  | .jr rs => [.jalr 0 rs 0]
  | .jalr rs => [.jalr 1 rs 0]
  | .ret => [.jalr 0 1 0]
  | .call off => [.auipc 1 (hi20 off), .jalr 1 1 (lo12 off)]
  | .tail off => [.auipc 6 (hi20 off), .jalr 0 6 (lo12 off)]
  | .la rd off => [.auipc rd (hi20 off), .addi rd rd (lo12 off)]
  | .fence => [.fence 15 15]
  | .fmvS rd rs => [.fsgnjS rd rs rs]
  | .fmvD rd rs => [.fsgnjD rd rs rs]
  | .fabsS rd rs => [.fsgnjxS rd rs rs]
  | .fabsD rd rs => [.fsgnjxD rd rs rs]
  | .fnegS rd rs => [.fsgnjnS rd rs rs]
  | .fnegD rd rs => [.fsgnjnD rd rs rs]

end Sys2Proof
end

