-- ==== Sys2Proof/Machine/Launch.lean ====
section
/-!
DEFINITION. The launch of a run by the execution environment, for every value of the open parameters (R35, R398, R420,
R421). The reset state is the launch of `resetLaunch`.
-/
namespace Sys2Proof.Machine

/-- What the host chooses before launch (R398). -/
structure Launch where
  /-- The parameters of the run. -/
  cfg : Config
  /-- X_INIT: x1 to x31. -/
  xInit : Vector DWord 31
  /-- F_INIT: f0 to f31. -/
  fInit : Vector DWord 32
  /-- FRM_INIT. -/
  frmInit : Rm
  /-- FFLAGS_INIT. -/
  fflagsInit : BitVec 5
  /-- The launch image, and any other byte the host fixes: (address, byte) pairs, a later one over an earlier one. -/
  image : List Host.Cell
deriving DecidableEq, Repr

/-- The parameters and the image are ones the spec admits: a misaligned RESET_PC "is refused", HALT_SET holds multiples of
4, and the image lies in MEM_MAP (R397, R398). -/
def Launch.ok (l : Launch) : Bool := l.cfg.wf && l.image.all fun c => l.cfg.mapped c.1

/-- The state at launch (R35, R421): pc at RESET_PC, the registers as X_INIT and F_INIT say, no reservation, the image in
memory, running; no byte of the image needs a FENCE.I before it is fetched (R425). -/
def State.launch (l : Launch) : Res :=
  if l.ok then
    .next {
      cfg := l.cfg
      x := l.xInit.map fun v => (v.setWidth l.cfg.xlen.bits).setWidth 64
      pc := l.cfg.resetPc
      f := l.fInit
      fcsr := (0 : BitVec 24) ++ l.frmInit ++ l.fflagsInit
      reservation := none
      mem := placeCells l.image []
      status := .running
      unfenced := []
      scDraws := 0
      fetchDraws := 0 }
  else .refused .illFormedLaunch

/-- The launch the reset state stands for (log entries 2 to 5). -/
def resetLaunch : Launch where
  cfg := resetConfig
  xInit := Vector.replicate 31 0
  fInit := Vector.replicate 32 0
  frmInit := 0
  fflagsInit := 0
  image := []

end Sys2Proof.Machine
end

