-- ==== Sys2Proof/Safety.lean ====
section
/-!
DEFINITION. The terms claims use: numerical views of the state, frames, how a run ends, the invariant of the machine, which
instruction can raise what, and the progress premises of LR/SC.
-/
namespace Sys2Proof.Machine

/-! ### Numerical views -/

/-- `unsigned(x[r])` (R8). -/
def State.xNat (s : State) (r : XReg) : Nat := (s.rX r).toNat

/-- `signed(x[r])` (R8). -/
def State.xInt (s : State) (r : XReg) : Int := (s.rX r).toInt

/-- 2^XLEN. -/
def State.span (s : State) : Nat := 2 ^ s.cfg.xlen.bits

/-- The XLEN-bit pattern of an integer, as a number (R8). -/
def State.ofInt (s : State) (v : Int) : Nat := (v % (s.span : Int)).toNat

/-- The address of the next instruction in sequence (R24). -/
def State.nextPc (s : State) : Nat := (s.pc.toNat + 4) % s.span

/-- The signed value of the low 32 bits of an integer. -/
def low32 (v : Int) : Int := Int.bmod v (2 ^ 32)

/-- The signed value of an `n`-byte number. -/
def signedBytes (n v : Nat) : Int := Int.bmod v (256 ^ n)

/-- The `n` bytes of memory at the addresses `as`, as one little-endian number (R51). -/
def State.bytesNat (s : State) (as : List Nat) : Nat := leNat (as.map (memByte s.mem))

/-! ### What an instruction leaves as it was -/

/-- From `s` to `t` nothing changes but, perhaps, the integer register `xd`, the floating-point register `fd`, the bytes of
memory at the addresses `ms`, the pc, `fcsr`, the reservation and the count of store-conditional draws. -/
def Frame (s t : State) (xd : Option XReg) (fd : Option FReg) (ms : List Nat) : Prop :=
  t.cfg = s.cfg ∧ t.status = s.status ∧ t.fetchDraws = s.fetchDraws ∧
  (∀ r, some r ≠ xd → t.xNat r = s.xNat r) ∧
  (∀ r, some r ≠ fd → t.rF r = s.rF r) ∧
  ∀ a, a ∉ ms → memByte t.mem a = memByte s.mem a ∧ t.unfenced.lookup a = s.unfenced.lookup a

/-- The reservation and the count of store-conditional draws are as they were. -/
def KeepsReservation (s t : State) : Prop := t.reservation = s.reservation ∧ t.scDraws = s.scDraws

/-- `i` completes at `s`: it writes `v` to integer register `rd` (nothing when `rd` is x0), ORs the flags `fl` into
`fflags`, advances the pc, and changes nothing else. -/
def WritesX (s : State) (i : Instr) (rd : XReg) (v : Nat) (fl : FFlags := 0) : Prop :=
  ∃ t, exec i s = .next t ∧ t.xNat rd = (if rd = 0 then 0 else v) ∧ t.pc.toNat = s.nextPc ∧
    t.fcsr = s.fcsr ||| fl.setWidth 32 ∧ KeepsReservation s t ∧ Frame s t (some rd) none []

/-- `i` completes at `s`: it writes `v` to floating-point register `rd`, ORs the flags `fl` into `fflags`, advances the pc,
and changes nothing else. -/
def WritesF (s : State) (i : Instr) (rd : FReg) (v : DWord) (fl : FFlags := 0) : Prop :=
  ∃ t, exec i s = .next t ∧ t.rF rd = v ∧ t.pc.toNat = s.nextPc ∧ t.fcsr = s.fcsr ||| fl.setWidth 32 ∧
    KeepsReservation s t ∧ Frame s t none (some rd) []

/-- `i` completes at `s`: the bytes at `as`, from the lowest of the value up, become those of `v`, the pc advances, and
nothing else changes. -/
def StoresAt (s : State) (i : Instr) (as : List Nat) (v : Nat) : Prop :=
  ∃ t, exec i s = .next t ∧ t.bytesNat as = v % 256 ^ as.length ∧ t.pc.toNat = s.nextPc ∧ t.fcsr = s.fcsr ∧
    KeepsReservation s t ∧ Frame s t none none as

/-- `i` completes at `s`: the bytes at `as` become those of `v`, integer register `rd` receives `old`, the pc advances, and
nothing else changes. -/
def UpdatesAt (s : State) (i : Instr) (as : List Nat) (rd : XReg) (old v : Nat) : Prop :=
  ∃ t, exec i s = .next t ∧ t.bytesNat as = v % 256 ^ as.length ∧ t.xNat rd = (if rd = 0 then 0 else old) ∧
    t.pc.toNat = s.nextPc ∧ t.fcsr = s.fcsr ∧ KeepsReservation s t ∧ Frame s t (some rd) none as

/-- `i` completes at `s` as a control transfer to `target`: the pc becomes `target`, integer register `rd` receives `v`,
and nothing else changes. -/
def Transfers (s : State) (i : Instr) (target : Nat) (rd : XReg) (v : Nat) : Prop :=
  ∃ t, exec i s = .next t ∧ t.pc.toNat = target ∧ t.xNat rd = (if rd = 0 then 0 else v) ∧ t.fcsr = s.fcsr ∧
    KeepsReservation s t ∧ Frame s t (some rd) none []

/-- `i` takes exception `e` with trap value `v` at `s` (R388). -/
def Traps (s : State) (i : Instr) (e : Exc) (v : Nat) : Prop := exec i s = .next (s.takeTrap e (BitVec.ofNat 64 v))

/-- A conditional branch at `s` (R135 to R140): not taken it only advances; taken it goes to `target`, or raises there when
`target` is not a multiple of 4 (R382). -/
def BranchesTo (s : State) (i : Instr) (taken : Prop) (target : Nat) : Prop :=
  (¬taken → Transfers s i s.nextPc 0 0) ∧ (taken → target % 4 = 0 → Transfers s i target 0 0) ∧
    (taken → target % 4 ≠ 0 → Traps s i .instructionAddressMisaligned target)

/-- A load-reserved of `n` bytes at `a` completes at `s`: integer register `rd` receives the bytes sign-extended, the
reservation becomes the aligned block of `G = max(RES_GRANULE, n)` bytes around `a` (R227 (a)), the pc advances, and nothing
else changes. -/
def ReservesAt (s : State) (i : Instr) (rd : XReg) {w : Nat} (a : BitVec w) (n : Nat) : Prop :=
  ∃ t, exec i s = .next t ∧
    t.xNat rd = (if rd = 0 then 0 else s.ofInt (signedBytes n (s.bytesNat (byteAddrs a n)))) ∧
    t.reservation = some ⟨BitVec.ofNat 64 (a.toNat / max s.cfg.resGranule n * max s.cfg.resGranule n),
      max s.cfg.resGranule n⟩ ∧
    t.scDraws = s.scDraws ∧ t.pc.toNat = s.nextPc ∧ t.fcsr = s.fcsr ∧ Frame s t (some rd) none []

/-- The reservation is valid and contains the `n` bytes at `a` (R227 (e)). -/
def State.holds (s : State) {w : Nat} (a : BitVec w) (n : Nat) : Prop :=
  ∃ r, s.reservation = some r ∧ r.base.toNat ≤ a.toNat ∧ a.toNat + n ≤ r.base.toNat + r.size

/-- A store-conditional completes at `s` after `draws` draws: on success the bytes at `as` become those of `v` and integer
register `rd` receives 0; on failure memory stays and `rd` receives 1. Either way the reservation is gone, the pc advances,
and nothing else changes (R227 (b), R230). -/
def ScEnds (s : State) (i : Instr) (rd : XReg) (as : List Nat) (v : Nat) (success : Bool) (draws : Nat) : Prop :=
  ∃ t, exec i s = .next t ∧ t.xNat rd = (if rd = 0 ∨ success = true then 0 else 1) ∧
    (success = true → t.bytesNat as = v % 256 ^ as.length) ∧ t.reservation = none ∧ t.scDraws = s.scDraws + draws ∧
    t.pc.toNat = s.nextPc ∧ t.fcsr = s.fcsr ∧ Frame s t (some rd) none (if success then as else [])

/-- The `n` bytes at `a` exist (R58), and the access is naturally aligned (R53). -/
def State.accessible (s : State) {w : Nat} (a : BitVec w) (n : Nat) : Prop :=
  a.toNat % n = 0 ∧ ∀ b ∈ byteAddrs a n, s.cfg.mapped b = true

/-- As `accessible`, or misaligned under MISALIGNED_DATA = emulate (R54). -/
def State.plainAccessible (s : State) {w : Nat} (a : BitVec w) (n : Nat) : Prop :=
  (a.toNat % n = 0 ∨ s.cfg.misaligned = .emulate) ∧ ∀ b ∈ byteAddrs a n, s.cfg.mapped b = true

/-! ### Runs (R389, R397, R403) -/

/-- The run has ended: the hart is stopped (R397). -/
def State.ended (s : State) : Bool := decide (s.status = .stopped)

/-- The run has faulted: the hart is trapped (R389). -/
def State.faulted (s : State) : Bool :=
  match s.status with
  | .running => false
  | .stopped => false
  | .trapped _ _ _ => true

/-- `t` is reached from `s` by some number of steps. -/
inductive Reachable (s : State) : State → Prop where
  /-- No step. -/
  | here : Reachable s s
  /-- One more step. -/
  | after {t u : State} : Reachable s t → step t = .next u → Reachable s u

/-! ### The invariant -/

/-- The fetch candidates are in order: addresses strictly rising, at least two different values each (R72). -/
def Unfenced.wf (u : Unfenced) : Bool :=
  decide (u.Pairwise fun c d => c.1 < d.1) && u.all fun c => decide (2 ≤ c.2.length) && decide c.2.Nodup

/-- What every state of a run satisfies: canonical memory inside MEM_MAP (R32, R58), the pc a multiple of 4 (R24), registers
and pc of XLEN bits (R20, R23), the reserved bits of `fcsr` zero (R28), fetch candidates in order and holding the current
byte (R72), a reservation of at least four bytes inside the address space (R227), and a trap recorded at its own pc
(R388). -/
structure State.Inv (s : State) : Prop where
  /-- Memory is in canonical form. -/
  memory : Memory.wf s.mem = true
  /-- Memory lists only bytes that exist. -/
  mapped : ∀ c ∈ s.mem, s.cfg.mapped c.1 = true
  /-- The pc is a multiple of 4. -/
  pcAligned : s.pc.toNat % 4 = 0
  /-- The pc has XLEN bits. -/
  pcWidth : s.pc.toNat < s.span
  /-- The integer registers have XLEN bits. -/
  xWidth : ∀ i : Fin 31, s.x[i].toNat < s.span
  /-- Bits 31:8 of `fcsr` are zero. -/
  fcsrReserved : s.fcsr.toNat < 256
  /-- The fetch candidates are in order. -/
  unfencedOrder : Unfenced.wf s.unfenced = true
  /-- The current value of a byte is among its fetch candidates. -/
  unfencedCurrent : ∀ c ∈ s.unfenced, memByte s.mem c.1 ∈ c.2
  /-- A reservation is a block of at least four bytes from an XLEN-bit address. -/
  reservationWidth : ∀ r, s.reservation = some r → r.base.toNat < s.span ∧ 4 ≤ r.size
  /-- A trapped hart keeps its pc at the trapping instruction. -/
  trapPc : ∀ e v p, s.status = .trapped e v p → p = s.pc

/-! ### The real numbers behind floating-point values (R273, R274) -/

/-- The value is the number `v`: a zero of either sign, or a finite number. -/
def FVal.isRat : FVal → Rat → Prop
  | .nan _, _ => False
  | .inf _, _ => False
  | .zero _, v => v = 0
  | .fin w, v => w = v

/-- An infinity. -/
def FVal.isInf : FVal → Bool
  | .nan _ => false
  | .inf _ => true
  | .zero _ => false
  | .fin _ => false

/-- A number: a zero or a finite number. -/
def FVal.isNumber : FVal → Bool
  | .nan _ => false
  | .inf _ => false
  | .zero _ => true
  | .fin _ => true

/-- An infinity or a finite number other than zero. -/
def FVal.isNonzero : FVal → Bool
  | .nan _ => false
  | .inf _ => true
  | .zero _ => false
  | .fin _ => true

/-- The exact result is the real number `r`, which is not zero. -/
def Exact.isReal : Exact → Real → Prop
  | .rat v, r => (v : Real) = r ∧ r ≠ 0
  | .root v, r => r * r = (v : Real) ∧ 0 < r

/-- `n` is the integer R274's `round` chooses for the real `t` by mode `m`. -/
def RMode.chooses (m : RMode) (t : Real) (n : Int) : Prop :=
  match m with
  | .rne => |(n : Real) - t| ≤ 1 / 2 ∧ (|(n : Real) - t| = 1 / 2 → n % 2 = 0)
  | .rtz => |(n : Real) - t| < 1 ∧ |(n : Real)| ≤ |t|
  | .rdn => (n : Real) ≤ t ∧ t < n + 1
  | .rup => t ≤ n ∧ (n : Real) - 1 < t
  | .rmm => |(n : Real) - t| ≤ 1 / 2 ∧ (|(n : Real) - t| = 1 / 2 → |t| < |(n : Real)|)

end Sys2Proof.Machine

namespace Sys2Proof

open Machine

/-! ### What an instruction can raise and touch (R404) -/

/-- The exceptions an instruction's own execution can raise at an XLEN that has its row: the table of R404. -/
def Instr.raisable : Instr → List Exc
  | .lui _ _ | .auipc _ _ | .addi _ _ _ | .slti _ _ _ | .sltiu _ _ _ | .xori _ _ _ | .ori _ _ _ | .andi _ _ _
  | .slli32 _ _ _ | .srli32 _ _ _ | .srai32 _ _ _ | .add _ _ _ | .sub _ _ _ | .sll _ _ _ | .slt _ _ _ | .sltu _ _ _
  | .xor _ _ _ | .srl _ _ _ | .sra _ _ _ | .or _ _ _ | .and _ _ _ | .fence _ _ | .fenceI | .slli64 _ _ _
  | .srli64 _ _ _ | .srai64 _ _ _ | .addiw _ _ _ | .slliw _ _ _ | .srliw _ _ _ | .sraiw _ _ _ | .addw _ _ _
  | .subw _ _ _ | .sllw _ _ _ | .srlw _ _ _ | .sraw _ _ _ | .mul _ _ _ | .mulh _ _ _ | .mulhsu _ _ _ | .mulhu _ _ _
  | .div _ _ _ | .divu _ _ _ | .rem _ _ _ | .remu _ _ _ | .mulw _ _ _ | .divw _ _ _ | .divuw _ _ _ | .remw _ _ _
  | .remuw _ _ _ | .fsgnjS _ _ _ | .fsgnjnS _ _ _ | .fsgnjxS _ _ _ | .fminS _ _ _ | .fmaxS _ _ _ | .fleS _ _ _
  | .fltS _ _ _ | .feqS _ _ _ | .fmvXS _ _ | .fclassS _ _ | .fmvSX _ _ | .fsgnjD _ _ _ | .fsgnjnD _ _ _
  | .fsgnjxD _ _ _ | .fminD _ _ _ | .fmaxD _ _ _ | .fleD _ _ _ | .fltD _ _ _ | .feqD _ _ _ | .fclassD _ _
  | .fmvXD _ _ | .fmvDX _ _ => []
  | .jal _ _ | .jalr _ _ _ | .beq _ _ _ | .bne _ _ _ | .blt _ _ _ | .bge _ _ _ | .bltu _ _ _ | .bgeu _ _ _ => [.instructionAddressMisaligned]
  | .lb _ _ _ | .lbu _ _ _ => [.loadAccessFault]
  | .lh _ _ _ | .lhu _ _ _ | .lw _ _ _ | .lwu _ _ _ | .ld _ _ _ | .flw _ _ _ | .fld _ _ _ | .lrW _ _ _ _
  | .lrD _ _ _ _ => [.loadAddressMisaligned, .loadAccessFault]
  | .sb _ _ _ => [.storeAmoAccessFault]
  | .sh _ _ _ | .sw _ _ _ | .sd _ _ _ | .fsw _ _ _ | .fsd _ _ _ | .scW _ _ _ _ _ | .scD _ _ _ _ _
  | .amoswapW _ _ _ _ _ | .amoaddW _ _ _ _ _ | .amoxorW _ _ _ _ _ | .amoorW _ _ _ _ _ | .amoandW _ _ _ _ _
  | .amominW _ _ _ _ _ | .amomaxW _ _ _ _ _ | .amominuW _ _ _ _ _ | .amomaxuW _ _ _ _ _ | .amoswapD _ _ _ _ _
  | .amoaddD _ _ _ _ _ | .amoxorD _ _ _ _ _ | .amoorD _ _ _ _ _ | .amoandD _ _ _ _ _ | .amominD _ _ _ _ _
  | .amomaxD _ _ _ _ _ | .amominuD _ _ _ _ _ | .amomaxuD _ _ _ _ _ => [.storeAmoAddressMisaligned, .storeAmoAccessFault]
  | .fmaddS _ _ _ _ _ | .fmsubS _ _ _ _ _ | .fnmsubS _ _ _ _ _ | .fnmaddS _ _ _ _ _ | .faddS _ _ _ _
  | .fsubS _ _ _ _ | .fmulS _ _ _ _ | .fdivS _ _ _ _ | .fsqrtS _ _ _ | .fcvtWS _ _ _ | .fcvtWuS _ _ _
  | .fcvtSW _ _ _ | .fcvtSWu _ _ _ | .fcvtLS _ _ _ | .fcvtLuS _ _ _ | .fcvtSL _ _ _ | .fcvtSLu _ _ _
  | .fmaddD _ _ _ _ _ | .fmsubD _ _ _ _ _ | .fnmsubD _ _ _ _ _ | .fnmaddD _ _ _ _ _ | .faddD _ _ _ _
  | .fsubD _ _ _ _ | .fmulD _ _ _ _ | .fdivD _ _ _ _ | .fsqrtD _ _ _ | .fcvtWD _ _ _ | .fcvtWuD _ _ _
  | .fcvtDW _ _ _ | .fcvtDWu _ _ _ | .fcvtLD _ _ _ | .fcvtLuD _ _ _ | .fcvtDL _ _ _ | .fcvtDLu _ _ _ => [.illegalInstruction]

/-- The instruction can write memory: stores, SC and the AMOs (R146 to R148, R183, R225, R230, R276, R332). -/
def Instr.writesMemory : Instr → Bool
  | .sb _ _ _ | .sh _ _ _ | .sw _ _ _ | .sd _ _ _ | .fsw _ _ _ | .fsd _ _ _ | .scW _ _ _ _ _ | .scD _ _ _ _ _
  | .amoswapW _ _ _ _ _ | .amoaddW _ _ _ _ _ | .amoxorW _ _ _ _ _ | .amoorW _ _ _ _ _ | .amoandW _ _ _ _ _
  | .amominW _ _ _ _ _ | .amomaxW _ _ _ _ _ | .amominuW _ _ _ _ _ | .amomaxuW _ _ _ _ _ | .amoswapD _ _ _ _ _
  | .amoaddD _ _ _ _ _ | .amoxorD _ _ _ _ _ | .amoorD _ _ _ _ _ | .amoandD _ _ _ _ _ | .amominD _ _ _ _ _
  | .amomaxD _ _ _ _ _ | .amominuD _ _ _ _ _ | .amomaxuD _ _ _ _ _ => true
  | .lui _ _ | .auipc _ _ | .jal _ _ | .jalr _ _ _ | .beq _ _ _ | .bne _ _ _ | .blt _ _ _ | .bge _ _ _
  | .bltu _ _ _ | .bgeu _ _ _ | .lb _ _ _ | .lh _ _ _ | .lw _ _ _ | .lbu _ _ _ | .lhu _ _ _ | .addi _ _ _
  | .slti _ _ _ | .sltiu _ _ _ | .xori _ _ _ | .ori _ _ _ | .andi _ _ _ | .slli32 _ _ _ | .srli32 _ _ _
  | .srai32 _ _ _ | .add _ _ _ | .sub _ _ _ | .sll _ _ _ | .slt _ _ _ | .sltu _ _ _ | .xor _ _ _ | .srl _ _ _
  | .sra _ _ _ | .or _ _ _ | .and _ _ _ | .fence _ _ | .fenceI | .lwu _ _ _ | .ld _ _ _ | .slli64 _ _ _
  | .srli64 _ _ _ | .srai64 _ _ _ | .addiw _ _ _ | .slliw _ _ _ | .srliw _ _ _ | .sraiw _ _ _ | .addw _ _ _
  | .subw _ _ _ | .sllw _ _ _ | .srlw _ _ _ | .sraw _ _ _ | .mul _ _ _ | .mulh _ _ _ | .mulhsu _ _ _ | .mulhu _ _ _
  | .div _ _ _ | .divu _ _ _ | .rem _ _ _ | .remu _ _ _ | .mulw _ _ _ | .divw _ _ _ | .divuw _ _ _ | .remw _ _ _
  | .remuw _ _ _ | .lrW _ _ _ _ | .lrD _ _ _ _ | .flw _ _ _ | .fmaddS _ _ _ _ _ | .fmsubS _ _ _ _ _
  | .fnmsubS _ _ _ _ _ | .fnmaddS _ _ _ _ _ | .faddS _ _ _ _ | .fsubS _ _ _ _ | .fmulS _ _ _ _ | .fdivS _ _ _ _
  | .fsgnjS _ _ _ | .fsgnjnS _ _ _ | .fsgnjxS _ _ _ | .fminS _ _ _ | .fmaxS _ _ _ | .fsqrtS _ _ _ | .fleS _ _ _
  | .fltS _ _ _ | .feqS _ _ _ | .fcvtWS _ _ _ | .fcvtWuS _ _ _ | .fcvtSW _ _ _ | .fcvtSWu _ _ _ | .fmvXS _ _
  | .fclassS _ _ | .fmvSX _ _ | .fcvtLS _ _ _ | .fcvtLuS _ _ _ | .fcvtSL _ _ _ | .fcvtSLu _ _ _ | .fld _ _ _
  | .fmaddD _ _ _ _ _ | .fmsubD _ _ _ _ _ | .fnmsubD _ _ _ _ _ | .fnmaddD _ _ _ _ _ | .faddD _ _ _ _
  | .fsubD _ _ _ _ | .fmulD _ _ _ _ | .fdivD _ _ _ _ | .fsgnjD _ _ _ | .fsgnjnD _ _ _ | .fsgnjxD _ _ _
  | .fminD _ _ _ | .fmaxD _ _ _ | .fsqrtD _ _ _ | .fleD _ _ _ | .fltD _ _ _ | .feqD _ _ _ | .fcvtWD _ _ _
  | .fcvtWuD _ _ _ | .fcvtDW _ _ _ | .fcvtDWu _ _ _ | .fclassD _ _ | .fcvtLD _ _ _ | .fcvtLuD _ _ _ | .fcvtDL _ _ _
  | .fcvtDLu _ _ _ | .fmvXD _ _ | .fmvDX _ _ => false

/-- LR and SC, the only instructions that touch the reservation (R227 (g)). -/
def Instr.touchesReservation : Instr → Bool
  | .lrW _ _ _ _ | .lrD _ _ _ _ | .scW _ _ _ _ _ | .scD _ _ _ _ _ => true
  | .lui _ _ | .auipc _ _ | .jal _ _ | .jalr _ _ _ | .beq _ _ _ | .bne _ _ _ | .blt _ _ _ | .bge _ _ _
  | .bltu _ _ _ | .bgeu _ _ _ | .lb _ _ _ | .lh _ _ _ | .lw _ _ _ | .lbu _ _ _ | .lhu _ _ _ | .sb _ _ _ | .sh _ _ _
  | .sw _ _ _ | .addi _ _ _ | .slti _ _ _ | .sltiu _ _ _ | .xori _ _ _ | .ori _ _ _ | .andi _ _ _ | .slli32 _ _ _
  | .srli32 _ _ _ | .srai32 _ _ _ | .add _ _ _ | .sub _ _ _ | .sll _ _ _ | .slt _ _ _ | .sltu _ _ _ | .xor _ _ _
  | .srl _ _ _ | .sra _ _ _ | .or _ _ _ | .and _ _ _ | .fence _ _ | .fenceI | .lwu _ _ _ | .ld _ _ _ | .sd _ _ _
  | .slli64 _ _ _ | .srli64 _ _ _ | .srai64 _ _ _ | .addiw _ _ _ | .slliw _ _ _ | .srliw _ _ _ | .sraiw _ _ _
  | .addw _ _ _ | .subw _ _ _ | .sllw _ _ _ | .srlw _ _ _ | .sraw _ _ _ | .mul _ _ _ | .mulh _ _ _ | .mulhsu _ _ _
  | .mulhu _ _ _ | .div _ _ _ | .divu _ _ _ | .rem _ _ _ | .remu _ _ _ | .mulw _ _ _ | .divw _ _ _ | .divuw _ _ _
  | .remw _ _ _ | .remuw _ _ _ | .amoswapW _ _ _ _ _ | .amoaddW _ _ _ _ _ | .amoxorW _ _ _ _ _ | .amoorW _ _ _ _ _
  | .amoandW _ _ _ _ _ | .amominW _ _ _ _ _ | .amomaxW _ _ _ _ _ | .amominuW _ _ _ _ _ | .amomaxuW _ _ _ _ _
  | .amoswapD _ _ _ _ _ | .amoaddD _ _ _ _ _ | .amoxorD _ _ _ _ _ | .amoorD _ _ _ _ _ | .amoandD _ _ _ _ _
  | .amominD _ _ _ _ _ | .amomaxD _ _ _ _ _ | .amominuD _ _ _ _ _ | .amomaxuD _ _ _ _ _ | .flw _ _ _ | .fsw _ _ _
  | .fmaddS _ _ _ _ _ | .fmsubS _ _ _ _ _ | .fnmsubS _ _ _ _ _ | .fnmaddS _ _ _ _ _ | .faddS _ _ _ _
  | .fsubS _ _ _ _ | .fmulS _ _ _ _ | .fdivS _ _ _ _ | .fsgnjS _ _ _ | .fsgnjnS _ _ _ | .fsgnjxS _ _ _
  | .fminS _ _ _ | .fmaxS _ _ _ | .fsqrtS _ _ _ | .fleS _ _ _ | .fltS _ _ _ | .feqS _ _ _ | .fcvtWS _ _ _
  | .fcvtWuS _ _ _ | .fcvtSW _ _ _ | .fcvtSWu _ _ _ | .fmvXS _ _ | .fclassS _ _ | .fmvSX _ _ | .fcvtLS _ _ _
  | .fcvtLuS _ _ _ | .fcvtSL _ _ _ | .fcvtSLu _ _ _ | .fld _ _ _ | .fsd _ _ _ | .fmaddD _ _ _ _ _
  | .fmsubD _ _ _ _ _ | .fnmsubD _ _ _ _ _ | .fnmaddD _ _ _ _ _ | .faddD _ _ _ _ | .fsubD _ _ _ _ | .fmulD _ _ _ _
  | .fdivD _ _ _ _ | .fsgnjD _ _ _ | .fsgnjnD _ _ _ | .fsgnjxD _ _ _ | .fminD _ _ _ | .fmaxD _ _ _ | .fsqrtD _ _ _
  | .fleD _ _ _ | .fltD _ _ _ | .feqD _ _ _ | .fcvtWD _ _ _ | .fcvtWuD _ _ _ | .fcvtDW _ _ _ | .fcvtDWu _ _ _
  | .fclassD _ _ | .fcvtLD _ _ _ | .fcvtLuD _ _ _ | .fcvtDL _ _ _ | .fcvtDLu _ _ _ | .fmvXD _ _ | .fmvDX _ _ => false

/-- The floating-point register an instruction writes (R121). -/
def Instr.fDest : Instr → Option FReg
  | .flw rd _ _ | .fmaddS rd _ _ _ _ | .fmsubS rd _ _ _ _ | .fnmsubS rd _ _ _ _ | .fnmaddS rd _ _ _ _
  | .faddS rd _ _ _ | .fsubS rd _ _ _ | .fmulS rd _ _ _ | .fdivS rd _ _ _ | .fsgnjS rd _ _ | .fsgnjnS rd _ _
  | .fsgnjxS rd _ _ | .fminS rd _ _ | .fmaxS rd _ _ | .fsqrtS rd _ _ | .fcvtSW rd _ _ | .fcvtSWu rd _ _
  | .fmvSX rd _ | .fcvtSL rd _ _ | .fcvtSLu rd _ _ | .fld rd _ _ | .fmaddD rd _ _ _ _ | .fmsubD rd _ _ _ _
  | .fnmsubD rd _ _ _ _ | .fnmaddD rd _ _ _ _ | .faddD rd _ _ _ | .fsubD rd _ _ _ | .fmulD rd _ _ _
  | .fdivD rd _ _ _ | .fsgnjD rd _ _ | .fsgnjnD rd _ _ | .fsgnjxD rd _ _ | .fminD rd _ _ | .fmaxD rd _ _
  | .fsqrtD rd _ _ | .fcvtDW rd _ _ | .fcvtDWu rd _ _ | .fcvtDL rd _ _ | .fcvtDLu rd _ _ | .fmvDX rd _ => some rd
  | .lui _ _ | .auipc _ _ | .jal _ _ | .jalr _ _ _ | .beq _ _ _ | .bne _ _ _ | .blt _ _ _ | .bge _ _ _
  | .bltu _ _ _ | .bgeu _ _ _ | .lb _ _ _ | .lh _ _ _ | .lw _ _ _ | .lbu _ _ _ | .lhu _ _ _ | .sb _ _ _ | .sh _ _ _
  | .sw _ _ _ | .addi _ _ _ | .slti _ _ _ | .sltiu _ _ _ | .xori _ _ _ | .ori _ _ _ | .andi _ _ _ | .slli32 _ _ _
  | .srli32 _ _ _ | .srai32 _ _ _ | .add _ _ _ | .sub _ _ _ | .sll _ _ _ | .slt _ _ _ | .sltu _ _ _ | .xor _ _ _
  | .srl _ _ _ | .sra _ _ _ | .or _ _ _ | .and _ _ _ | .fence _ _ | .fenceI | .lwu _ _ _ | .ld _ _ _ | .sd _ _ _
  | .slli64 _ _ _ | .srli64 _ _ _ | .srai64 _ _ _ | .addiw _ _ _ | .slliw _ _ _ | .srliw _ _ _ | .sraiw _ _ _
  | .addw _ _ _ | .subw _ _ _ | .sllw _ _ _ | .srlw _ _ _ | .sraw _ _ _ | .mul _ _ _ | .mulh _ _ _ | .mulhsu _ _ _
  | .mulhu _ _ _ | .div _ _ _ | .divu _ _ _ | .rem _ _ _ | .remu _ _ _ | .mulw _ _ _ | .divw _ _ _ | .divuw _ _ _
  | .remw _ _ _ | .remuw _ _ _ | .lrW _ _ _ _ | .scW _ _ _ _ _ | .amoswapW _ _ _ _ _ | .amoaddW _ _ _ _ _
  | .amoxorW _ _ _ _ _ | .amoorW _ _ _ _ _ | .amoandW _ _ _ _ _ | .amominW _ _ _ _ _ | .amomaxW _ _ _ _ _
  | .amominuW _ _ _ _ _ | .amomaxuW _ _ _ _ _ | .lrD _ _ _ _ | .scD _ _ _ _ _ | .amoswapD _ _ _ _ _
  | .amoaddD _ _ _ _ _ | .amoxorD _ _ _ _ _ | .amoorD _ _ _ _ _ | .amoandD _ _ _ _ _ | .amominD _ _ _ _ _
  | .amomaxD _ _ _ _ _ | .amominuD _ _ _ _ _ | .amomaxuD _ _ _ _ _ | .fsw _ _ _ | .fleS _ _ _ | .fltS _ _ _
  | .feqS _ _ _ | .fcvtWS _ _ _ | .fcvtWuS _ _ _ | .fmvXS _ _ | .fclassS _ _ | .fcvtLS _ _ _ | .fcvtLuS _ _ _
  | .fsd _ _ _ | .fleD _ _ _ | .fltD _ _ _ | .feqD _ _ _ | .fcvtWD _ _ _ | .fcvtWuD _ _ _ | .fclassD _ _
  | .fcvtLD _ _ _ | .fcvtLuD _ _ _ | .fmvXD _ _ => none

/-- The integer register an instruction writes (R121). -/
def Instr.xDest : Instr → Option XReg
  | .lui rd _ | .auipc rd _ | .jal rd _ | .jalr rd _ _ | .lb rd _ _ | .lh rd _ _ | .lw rd _ _ | .lbu rd _ _
  | .lhu rd _ _ | .addi rd _ _ | .slti rd _ _ | .sltiu rd _ _ | .xori rd _ _ | .ori rd _ _ | .andi rd _ _
  | .slli32 rd _ _ | .srli32 rd _ _ | .srai32 rd _ _ | .add rd _ _ | .sub rd _ _ | .sll rd _ _ | .slt rd _ _
  | .sltu rd _ _ | .xor rd _ _ | .srl rd _ _ | .sra rd _ _ | .or rd _ _ | .and rd _ _ | .lwu rd _ _ | .ld rd _ _
  | .slli64 rd _ _ | .srli64 rd _ _ | .srai64 rd _ _ | .addiw rd _ _ | .slliw rd _ _ | .srliw rd _ _
  | .sraiw rd _ _ | .addw rd _ _ | .subw rd _ _ | .sllw rd _ _ | .srlw rd _ _ | .sraw rd _ _ | .mul rd _ _
  | .mulh rd _ _ | .mulhsu rd _ _ | .mulhu rd _ _ | .div rd _ _ | .divu rd _ _ | .rem rd _ _ | .remu rd _ _
  | .mulw rd _ _ | .divw rd _ _ | .divuw rd _ _ | .remw rd _ _ | .remuw rd _ _ | .lrW rd _ _ _ | .scW rd _ _ _ _
  | .amoswapW rd _ _ _ _ | .amoaddW rd _ _ _ _ | .amoxorW rd _ _ _ _ | .amoorW rd _ _ _ _ | .amoandW rd _ _ _ _
  | .amominW rd _ _ _ _ | .amomaxW rd _ _ _ _ | .amominuW rd _ _ _ _ | .amomaxuW rd _ _ _ _ | .lrD rd _ _ _
  | .scD rd _ _ _ _ | .amoswapD rd _ _ _ _ | .amoaddD rd _ _ _ _ | .amoxorD rd _ _ _ _ | .amoorD rd _ _ _ _
  | .amoandD rd _ _ _ _ | .amominD rd _ _ _ _ | .amomaxD rd _ _ _ _ | .amominuD rd _ _ _ _ | .amomaxuD rd _ _ _ _
  | .fleS rd _ _ | .fltS rd _ _ | .feqS rd _ _ | .fcvtWS rd _ _ | .fcvtWuS rd _ _ | .fmvXS rd _ | .fclassS rd _
  | .fcvtLS rd _ _ | .fcvtLuS rd _ _ | .fleD rd _ _ | .fltD rd _ _ | .feqD rd _ _ | .fcvtWD rd _ _
  | .fcvtWuD rd _ _ | .fclassD rd _ | .fcvtLD rd _ _ | .fcvtLuD rd _ _ | .fmvXD rd _ => some rd
  | .beq _ _ _ | .bne _ _ _ | .blt _ _ _ | .bge _ _ _ | .bltu _ _ _ | .bgeu _ _ _ | .sb _ _ _ | .sh _ _ _
  | .sw _ _ _ | .fence _ _ | .fenceI | .sd _ _ _ | .flw _ _ _ | .fsw _ _ _ | .fmaddS _ _ _ _ _ | .fmsubS _ _ _ _ _
  | .fnmsubS _ _ _ _ _ | .fnmaddS _ _ _ _ _ | .faddS _ _ _ _ | .fsubS _ _ _ _ | .fmulS _ _ _ _ | .fdivS _ _ _ _
  | .fsgnjS _ _ _ | .fsgnjnS _ _ _ | .fsgnjxS _ _ _ | .fminS _ _ _ | .fmaxS _ _ _ | .fsqrtS _ _ _ | .fcvtSW _ _ _
  | .fcvtSWu _ _ _ | .fmvSX _ _ | .fcvtSL _ _ _ | .fcvtSLu _ _ _ | .fld _ _ _ | .fsd _ _ _ | .fmaddD _ _ _ _ _
  | .fmsubD _ _ _ _ _ | .fnmsubD _ _ _ _ _ | .fnmaddD _ _ _ _ _ | .faddD _ _ _ _ | .fsubD _ _ _ _ | .fmulD _ _ _ _
  | .fdivD _ _ _ _ | .fsgnjD _ _ _ | .fsgnjnD _ _ _ | .fsgnjxD _ _ _ | .fminD _ _ _ | .fmaxD _ _ _ | .fsqrtD _ _ _
  | .fcvtDW _ _ _ | .fcvtDWu _ _ _ | .fcvtDL _ _ _ | .fcvtDLu _ _ _ | .fmvDX _ _ => none

/-- The rounding-mode field of the rows that have one (R112, R271). -/
def Instr.rmField : Instr → Option Rm
  | .fmaddS _ _ _ _ rm | .fmsubS _ _ _ _ rm | .fnmsubS _ _ _ _ rm | .fnmaddS _ _ _ _ rm | .faddS _ _ _ rm
  | .fsubS _ _ _ rm | .fmulS _ _ _ rm | .fdivS _ _ _ rm | .fsqrtS _ _ rm | .fcvtWS _ _ rm | .fcvtWuS _ _ rm
  | .fcvtSW _ _ rm | .fcvtSWu _ _ rm | .fcvtLS _ _ rm | .fcvtLuS _ _ rm | .fcvtSL _ _ rm | .fcvtSLu _ _ rm
  | .fmaddD _ _ _ _ rm | .fmsubD _ _ _ _ rm | .fnmsubD _ _ _ _ rm | .fnmaddD _ _ _ _ rm | .faddD _ _ _ rm
  | .fsubD _ _ _ rm | .fmulD _ _ _ rm | .fdivD _ _ _ rm | .fsqrtD _ _ rm | .fcvtWD _ _ rm | .fcvtWuD _ _ rm
  | .fcvtDW _ _ rm | .fcvtDWu _ _ rm | .fcvtLD _ _ rm | .fcvtLuD _ _ rm | .fcvtDL _ _ rm | .fcvtDLu _ _ rm => some rm
  | .lui _ _ | .auipc _ _ | .jal _ _ | .jalr _ _ _ | .beq _ _ _ | .bne _ _ _ | .blt _ _ _ | .bge _ _ _
  | .bltu _ _ _ | .bgeu _ _ _ | .lb _ _ _ | .lh _ _ _ | .lw _ _ _ | .lbu _ _ _ | .lhu _ _ _ | .sb _ _ _ | .sh _ _ _
  | .sw _ _ _ | .addi _ _ _ | .slti _ _ _ | .sltiu _ _ _ | .xori _ _ _ | .ori _ _ _ | .andi _ _ _ | .slli32 _ _ _
  | .srli32 _ _ _ | .srai32 _ _ _ | .add _ _ _ | .sub _ _ _ | .sll _ _ _ | .slt _ _ _ | .sltu _ _ _ | .xor _ _ _
  | .srl _ _ _ | .sra _ _ _ | .or _ _ _ | .and _ _ _ | .fence _ _ | .fenceI | .lwu _ _ _ | .ld _ _ _ | .sd _ _ _
  | .slli64 _ _ _ | .srli64 _ _ _ | .srai64 _ _ _ | .addiw _ _ _ | .slliw _ _ _ | .srliw _ _ _ | .sraiw _ _ _
  | .addw _ _ _ | .subw _ _ _ | .sllw _ _ _ | .srlw _ _ _ | .sraw _ _ _ | .mul _ _ _ | .mulh _ _ _ | .mulhsu _ _ _
  | .mulhu _ _ _ | .div _ _ _ | .divu _ _ _ | .rem _ _ _ | .remu _ _ _ | .mulw _ _ _ | .divw _ _ _ | .divuw _ _ _
  | .remw _ _ _ | .remuw _ _ _ | .lrW _ _ _ _ | .scW _ _ _ _ _ | .amoswapW _ _ _ _ _ | .amoaddW _ _ _ _ _
  | .amoxorW _ _ _ _ _ | .amoorW _ _ _ _ _ | .amoandW _ _ _ _ _ | .amominW _ _ _ _ _ | .amomaxW _ _ _ _ _
  | .amominuW _ _ _ _ _ | .amomaxuW _ _ _ _ _ | .lrD _ _ _ _ | .scD _ _ _ _ _ | .amoswapD _ _ _ _ _
  | .amoaddD _ _ _ _ _ | .amoxorD _ _ _ _ _ | .amoorD _ _ _ _ _ | .amoandD _ _ _ _ _ | .amominD _ _ _ _ _
  | .amomaxD _ _ _ _ _ | .amominuD _ _ _ _ _ | .amomaxuD _ _ _ _ _ | .flw _ _ _ | .fsw _ _ _ | .fsgnjS _ _ _
  | .fsgnjnS _ _ _ | .fsgnjxS _ _ _ | .fminS _ _ _ | .fmaxS _ _ _ | .fleS _ _ _ | .fltS _ _ _ | .feqS _ _ _
  | .fmvXS _ _ | .fclassS _ _ | .fmvSX _ _ | .fld _ _ _ | .fsd _ _ _ | .fsgnjD _ _ _ | .fsgnjnD _ _ _
  | .fsgnjxD _ _ _ | .fminD _ _ _ | .fmaxD _ _ _ | .fleD _ _ _ | .fltD _ _ _ | .feqD _ _ _ | .fclassD _ _
  | .fmvXD _ _ | .fmvDX _ _ => none

/-- JAL, JALR and the branches, the instructions that write the pc otherwise than by the advance (R23). -/
def Instr.transfersControl : Instr → Bool
  | .jal _ _ | .jalr _ _ _ | .beq _ _ _ | .bne _ _ _ | .blt _ _ _ | .bge _ _ _ | .bltu _ _ _ | .bgeu _ _ _ => true
  | .lui _ _ | .auipc _ _ | .lb _ _ _ | .lh _ _ _ | .lw _ _ _ | .lbu _ _ _ | .lhu _ _ _ | .sb _ _ _ | .sh _ _ _
  | .sw _ _ _ | .addi _ _ _ | .slti _ _ _ | .sltiu _ _ _ | .xori _ _ _ | .ori _ _ _ | .andi _ _ _ | .slli32 _ _ _
  | .srli32 _ _ _ | .srai32 _ _ _ | .add _ _ _ | .sub _ _ _ | .sll _ _ _ | .slt _ _ _ | .sltu _ _ _ | .xor _ _ _
  | .srl _ _ _ | .sra _ _ _ | .or _ _ _ | .and _ _ _ | .fence _ _ | .fenceI | .lwu _ _ _ | .ld _ _ _ | .sd _ _ _
  | .slli64 _ _ _ | .srli64 _ _ _ | .srai64 _ _ _ | .addiw _ _ _ | .slliw _ _ _ | .srliw _ _ _ | .sraiw _ _ _
  | .addw _ _ _ | .subw _ _ _ | .sllw _ _ _ | .srlw _ _ _ | .sraw _ _ _ | .mul _ _ _ | .mulh _ _ _ | .mulhsu _ _ _
  | .mulhu _ _ _ | .div _ _ _ | .divu _ _ _ | .rem _ _ _ | .remu _ _ _ | .mulw _ _ _ | .divw _ _ _ | .divuw _ _ _
  | .remw _ _ _ | .remuw _ _ _ | .lrW _ _ _ _ | .scW _ _ _ _ _ | .amoswapW _ _ _ _ _ | .amoaddW _ _ _ _ _
  | .amoxorW _ _ _ _ _ | .amoorW _ _ _ _ _ | .amoandW _ _ _ _ _ | .amominW _ _ _ _ _ | .amomaxW _ _ _ _ _
  | .amominuW _ _ _ _ _ | .amomaxuW _ _ _ _ _ | .lrD _ _ _ _ | .scD _ _ _ _ _ | .amoswapD _ _ _ _ _
  | .amoaddD _ _ _ _ _ | .amoxorD _ _ _ _ _ | .amoorD _ _ _ _ _ | .amoandD _ _ _ _ _ | .amominD _ _ _ _ _
  | .amomaxD _ _ _ _ _ | .amominuD _ _ _ _ _ | .amomaxuD _ _ _ _ _ | .flw _ _ _ | .fsw _ _ _ | .fmaddS _ _ _ _ _
  | .fmsubS _ _ _ _ _ | .fnmsubS _ _ _ _ _ | .fnmaddS _ _ _ _ _ | .faddS _ _ _ _ | .fsubS _ _ _ _ | .fmulS _ _ _ _
  | .fdivS _ _ _ _ | .fsgnjS _ _ _ | .fsgnjnS _ _ _ | .fsgnjxS _ _ _ | .fminS _ _ _ | .fmaxS _ _ _ | .fsqrtS _ _ _
  | .fleS _ _ _ | .fltS _ _ _ | .feqS _ _ _ | .fcvtWS _ _ _ | .fcvtWuS _ _ _ | .fcvtSW _ _ _ | .fcvtSWu _ _ _
  | .fmvXS _ _ | .fclassS _ _ | .fmvSX _ _ | .fcvtLS _ _ _ | .fcvtLuS _ _ _ | .fcvtSL _ _ _ | .fcvtSLu _ _ _
  | .fld _ _ _ | .fsd _ _ _ | .fmaddD _ _ _ _ _ | .fmsubD _ _ _ _ _ | .fnmsubD _ _ _ _ _ | .fnmaddD _ _ _ _ _
  | .faddD _ _ _ _ | .fsubD _ _ _ _ | .fmulD _ _ _ _ | .fdivD _ _ _ _ | .fsgnjD _ _ _ | .fsgnjnD _ _ _
  | .fsgnjxD _ _ _ | .fminD _ _ _ | .fmaxD _ _ _ | .fsqrtD _ _ _ | .fleD _ _ _ | .fltD _ _ _ | .feqD _ _ _
  | .fcvtWD _ _ _ | .fcvtWuD _ _ _ | .fcvtDW _ _ _ | .fcvtDWu _ _ _ | .fclassD _ _ | .fcvtLD _ _ _ | .fcvtLuD _ _ _
  | .fcvtDL _ _ _ | .fcvtDLu _ _ _ | .fmvXD _ _ | .fmvDX _ _ => false

/-- The memory access of an instruction: its side, whether it is atomic, its size in bytes, its base register, and its
offset (R53, R56, R61). -/
def Instr.access : Instr → Option (Access × Bool × Nat × XReg × BitVec 12)
  | .lb _ rs1 imm | .lbu _ rs1 imm => some (.load, false, 1, rs1, imm)
  | .lh _ rs1 imm | .lhu _ rs1 imm => some (.load, false, 2, rs1, imm)
  | .lw _ rs1 imm | .lwu _ rs1 imm | .flw _ rs1 imm => some (.load, false, 4, rs1, imm)
  | .ld _ rs1 imm | .fld _ rs1 imm => some (.load, false, 8, rs1, imm)
  | .sb _ rs1 imm => some (.store, false, 1, rs1, imm)
  | .sh _ rs1 imm => some (.store, false, 2, rs1, imm)
  | .sw _ rs1 imm | .fsw _ rs1 imm => some (.store, false, 4, rs1, imm)
  | .sd _ rs1 imm | .fsd _ rs1 imm => some (.store, false, 8, rs1, imm)
  | .lrW _ rs1 _ _ => some (.load, true, 4, rs1, 0)
  | .lrD _ rs1 _ _ => some (.load, true, 8, rs1, 0)
  | .scW _ _ rs1 _ _ | .amoswapW _ _ rs1 _ _ | .amoaddW _ _ rs1 _ _ | .amoxorW _ _ rs1 _ _ | .amoorW _ _ rs1 _ _
  | .amoandW _ _ rs1 _ _ | .amominW _ _ rs1 _ _ | .amomaxW _ _ rs1 _ _ | .amominuW _ _ rs1 _ _
  | .amomaxuW _ _ rs1 _ _ => some (.store, true, 4, rs1, 0)
  | .scD _ _ rs1 _ _ | .amoswapD _ _ rs1 _ _ | .amoaddD _ _ rs1 _ _ | .amoxorD _ _ rs1 _ _ | .amoorD _ _ rs1 _ _
  | .amoandD _ _ rs1 _ _ | .amominD _ _ rs1 _ _ | .amomaxD _ _ rs1 _ _ | .amominuD _ _ rs1 _ _
  | .amomaxuD _ _ rs1 _ _ => some (.store, true, 8, rs1, 0)
  | .lui _ _ | .auipc _ _ | .jal _ _ | .jalr _ _ _ | .beq _ _ _ | .bne _ _ _ | .blt _ _ _ | .bge _ _ _
  | .bltu _ _ _ | .bgeu _ _ _ | .addi _ _ _ | .slti _ _ _ | .sltiu _ _ _ | .xori _ _ _ | .ori _ _ _ | .andi _ _ _
  | .slli32 _ _ _ | .srli32 _ _ _ | .srai32 _ _ _ | .add _ _ _ | .sub _ _ _ | .sll _ _ _ | .slt _ _ _ | .sltu _ _ _
  | .xor _ _ _ | .srl _ _ _ | .sra _ _ _ | .or _ _ _ | .and _ _ _ | .fence _ _ | .fenceI | .slli64 _ _ _
  | .srli64 _ _ _ | .srai64 _ _ _ | .addiw _ _ _ | .slliw _ _ _ | .srliw _ _ _ | .sraiw _ _ _ | .addw _ _ _
  | .subw _ _ _ | .sllw _ _ _ | .srlw _ _ _ | .sraw _ _ _ | .mul _ _ _ | .mulh _ _ _ | .mulhsu _ _ _ | .mulhu _ _ _
  | .div _ _ _ | .divu _ _ _ | .rem _ _ _ | .remu _ _ _ | .mulw _ _ _ | .divw _ _ _ | .divuw _ _ _ | .remw _ _ _
  | .remuw _ _ _ | .fmaddS _ _ _ _ _ | .fmsubS _ _ _ _ _ | .fnmsubS _ _ _ _ _ | .fnmaddS _ _ _ _ _ | .faddS _ _ _ _
  | .fsubS _ _ _ _ | .fmulS _ _ _ _ | .fdivS _ _ _ _ | .fsgnjS _ _ _ | .fsgnjnS _ _ _ | .fsgnjxS _ _ _
  | .fminS _ _ _ | .fmaxS _ _ _ | .fsqrtS _ _ _ | .fleS _ _ _ | .fltS _ _ _ | .feqS _ _ _ | .fcvtWS _ _ _
  | .fcvtWuS _ _ _ | .fcvtSW _ _ _ | .fcvtSWu _ _ _ | .fmvXS _ _ | .fclassS _ _ | .fmvSX _ _ | .fcvtLS _ _ _
  | .fcvtLuS _ _ _ | .fcvtSL _ _ _ | .fcvtSLu _ _ _ | .fmaddD _ _ _ _ _ | .fmsubD _ _ _ _ _ | .fnmsubD _ _ _ _ _
  | .fnmaddD _ _ _ _ _ | .faddD _ _ _ _ | .fsubD _ _ _ _ | .fmulD _ _ _ _ | .fdivD _ _ _ _ | .fsgnjD _ _ _
  | .fsgnjnD _ _ _ | .fsgnjxD _ _ _ | .fminD _ _ _ | .fmaxD _ _ _ | .fsqrtD _ _ _ | .fleD _ _ _ | .fltD _ _ _
  | .feqD _ _ _ | .fcvtWD _ _ _ | .fcvtWuD _ _ _ | .fcvtDW _ _ _ | .fcvtDWu _ _ _ | .fclassD _ _ | .fcvtLD _ _ _
  | .fcvtLuD _ _ _ | .fcvtDL _ _ _ | .fcvtDLu _ _ _ | .fmvXD _ _ | .fmvDX _ _ => none

/-- The accrued exception flags an instruction can set (R272). -/
def Instr.flagMask : Instr → FFlags
  | .fmaddS _ _ _ _ _ | .fmsubS _ _ _ _ _ | .fnmsubS _ _ _ _ _ | .fnmaddS _ _ _ _ _ | .faddS _ _ _ _
  | .fsubS _ _ _ _ | .fmulS _ _ _ _ | .fmaddD _ _ _ _ _ | .fmsubD _ _ _ _ _ | .fnmsubD _ _ _ _ _
  | .fnmaddD _ _ _ _ _ | .faddD _ _ _ _ | .fsubD _ _ _ _ | .fmulD _ _ _ _ => flagNV ||| flagOF ||| flagUF ||| flagNX
  | .fdivS _ _ _ _ | .fdivD _ _ _ _ => flagNV ||| flagDZ ||| flagOF ||| flagUF ||| flagNX
  | .fsqrtS _ _ _ | .fsqrtD _ _ _ | .fcvtWS _ _ _ | .fcvtWuS _ _ _ | .fcvtLS _ _ _ | .fcvtLuS _ _ _ | .fcvtWD _ _ _
  | .fcvtWuD _ _ _ | .fcvtLD _ _ _ | .fcvtLuD _ _ _ => flagNV ||| flagNX
  | .fminS _ _ _ | .fmaxS _ _ _ | .fleS _ _ _ | .fltS _ _ _ | .feqS _ _ _ | .fminD _ _ _ | .fmaxD _ _ _
  | .fleD _ _ _ | .fltD _ _ _ | .feqD _ _ _ => flagNV
  | .fcvtSW _ _ _ | .fcvtSWu _ _ _ | .fcvtSL _ _ _ | .fcvtSLu _ _ _ | .fcvtDL _ _ _ | .fcvtDLu _ _ _ => flagNX
  | .lui _ _ | .auipc _ _ | .jal _ _ | .jalr _ _ _ | .beq _ _ _ | .bne _ _ _ | .blt _ _ _ | .bge _ _ _
  | .bltu _ _ _ | .bgeu _ _ _ | .lb _ _ _ | .lh _ _ _ | .lw _ _ _ | .lbu _ _ _ | .lhu _ _ _ | .sb _ _ _ | .sh _ _ _
  | .sw _ _ _ | .addi _ _ _ | .slti _ _ _ | .sltiu _ _ _ | .xori _ _ _ | .ori _ _ _ | .andi _ _ _ | .slli32 _ _ _
  | .srli32 _ _ _ | .srai32 _ _ _ | .add _ _ _ | .sub _ _ _ | .sll _ _ _ | .slt _ _ _ | .sltu _ _ _ | .xor _ _ _
  | .srl _ _ _ | .sra _ _ _ | .or _ _ _ | .and _ _ _ | .fence _ _ | .fenceI | .lwu _ _ _ | .ld _ _ _ | .sd _ _ _
  | .slli64 _ _ _ | .srli64 _ _ _ | .srai64 _ _ _ | .addiw _ _ _ | .slliw _ _ _ | .srliw _ _ _ | .sraiw _ _ _
  | .addw _ _ _ | .subw _ _ _ | .sllw _ _ _ | .srlw _ _ _ | .sraw _ _ _ | .mul _ _ _ | .mulh _ _ _ | .mulhsu _ _ _
  | .mulhu _ _ _ | .div _ _ _ | .divu _ _ _ | .rem _ _ _ | .remu _ _ _ | .mulw _ _ _ | .divw _ _ _ | .divuw _ _ _
  | .remw _ _ _ | .remuw _ _ _ | .lrW _ _ _ _ | .scW _ _ _ _ _ | .amoswapW _ _ _ _ _ | .amoaddW _ _ _ _ _
  | .amoxorW _ _ _ _ _ | .amoorW _ _ _ _ _ | .amoandW _ _ _ _ _ | .amominW _ _ _ _ _ | .amomaxW _ _ _ _ _
  | .amominuW _ _ _ _ _ | .amomaxuW _ _ _ _ _ | .lrD _ _ _ _ | .scD _ _ _ _ _ | .amoswapD _ _ _ _ _
  | .amoaddD _ _ _ _ _ | .amoxorD _ _ _ _ _ | .amoorD _ _ _ _ _ | .amoandD _ _ _ _ _ | .amominD _ _ _ _ _
  | .amomaxD _ _ _ _ _ | .amominuD _ _ _ _ _ | .amomaxuD _ _ _ _ _ | .flw _ _ _ | .fsw _ _ _ | .fsgnjS _ _ _
  | .fsgnjnS _ _ _ | .fsgnjxS _ _ _ | .fmvXS _ _ | .fclassS _ _ | .fmvSX _ _ | .fld _ _ _ | .fsd _ _ _
  | .fsgnjD _ _ _ | .fsgnjnD _ _ _ | .fsgnjxD _ _ _ | .fcvtDW _ _ _ | .fcvtDWu _ _ _ | .fclassD _ _ | .fmvXD _ _
  | .fmvDX _ _ => flagsNone

/-! ### Progress of LR/SC (R228, R426) -/

/-- A base integer instruction that a constrained loop may hold besides its LR and SC: no load, store, JALR, FENCE, FENCE.I
or backward JAL (R228). A branch is admitted here whatever its offset: whether it is taken backward is a matter of the run. -/
def Instr.allowedInLoop : Instr → Bool
  | .lui _ _ | .auipc _ _ | .addi _ _ _ | .slti _ _ _ | .sltiu _ _ _ | .xori _ _ _ | .ori _ _ _ | .andi _ _ _
  | .slli32 _ _ _ | .srli32 _ _ _ | .srai32 _ _ _ | .add _ _ _ | .sub _ _ _ | .sll _ _ _ | .slt _ _ _ | .sltu _ _ _
  | .xor _ _ _ | .srl _ _ _ | .sra _ _ _ | .or _ _ _ | .and _ _ _ | .slli64 _ _ _ | .srli64 _ _ _ | .srai64 _ _ _
  | .addiw _ _ _ | .slliw _ _ _ | .srliw _ _ _ | .sraiw _ _ _ | .addw _ _ _ | .subw _ _ _ | .sllw _ _ _
  | .srlw _ _ _ | .sraw _ _ _ | .beq _ _ _ | .bne _ _ _ | .blt _ _ _ | .bge _ _ _ | .bltu _ _ _ | .bgeu _ _ _ => true
  | .jal _ off => decide (0 < off.toInt)
  | .jalr _ _ _ | .lb _ _ _ | .lh _ _ _ | .lw _ _ _ | .lbu _ _ _ | .lhu _ _ _ | .sb _ _ _ | .sh _ _ _ | .sw _ _ _
  | .fence _ _ | .fenceI | .lwu _ _ _ | .ld _ _ _ | .sd _ _ _ | .mul _ _ _ | .mulh _ _ _ | .mulhsu _ _ _
  | .mulhu _ _ _ | .div _ _ _ | .divu _ _ _ | .rem _ _ _ | .remu _ _ _ | .mulw _ _ _ | .divw _ _ _ | .divuw _ _ _
  | .remw _ _ _ | .remuw _ _ _ | .lrW _ _ _ _ | .scW _ _ _ _ _ | .amoswapW _ _ _ _ _ | .amoaddW _ _ _ _ _
  | .amoxorW _ _ _ _ _ | .amoorW _ _ _ _ _ | .amoandW _ _ _ _ _ | .amominW _ _ _ _ _ | .amomaxW _ _ _ _ _
  | .amominuW _ _ _ _ _ | .amomaxuW _ _ _ _ _ | .lrD _ _ _ _ | .scD _ _ _ _ _ | .amoswapD _ _ _ _ _
  | .amoaddD _ _ _ _ _ | .amoxorD _ _ _ _ _ | .amoorD _ _ _ _ _ | .amoandD _ _ _ _ _ | .amominD _ _ _ _ _
  | .amomaxD _ _ _ _ _ | .amominuD _ _ _ _ _ | .amomaxuD _ _ _ _ _ | .flw _ _ _ | .fsw _ _ _ | .fmaddS _ _ _ _ _
  | .fmsubS _ _ _ _ _ | .fnmsubS _ _ _ _ _ | .fnmaddS _ _ _ _ _ | .faddS _ _ _ _ | .fsubS _ _ _ _ | .fmulS _ _ _ _
  | .fdivS _ _ _ _ | .fsgnjS _ _ _ | .fsgnjnS _ _ _ | .fsgnjxS _ _ _ | .fminS _ _ _ | .fmaxS _ _ _ | .fsqrtS _ _ _
  | .fleS _ _ _ | .fltS _ _ _ | .feqS _ _ _ | .fcvtWS _ _ _ | .fcvtWuS _ _ _ | .fcvtSW _ _ _ | .fcvtSWu _ _ _
  | .fmvXS _ _ | .fclassS _ _ | .fmvSX _ _ | .fcvtLS _ _ _ | .fcvtLuS _ _ _ | .fcvtSL _ _ _ | .fcvtSLu _ _ _
  | .fld _ _ _ | .fsd _ _ _ | .fmaddD _ _ _ _ _ | .fmsubD _ _ _ _ _ | .fnmsubD _ _ _ _ _ | .fnmaddD _ _ _ _ _
  | .faddD _ _ _ _ | .fsubD _ _ _ _ | .fmulD _ _ _ _ | .fdivD _ _ _ _ | .fsgnjD _ _ _ | .fsgnjnD _ _ _
  | .fsgnjxD _ _ _ | .fminD _ _ _ | .fmaxD _ _ _ | .fsqrtD _ _ _ | .fleD _ _ _ | .fltD _ _ _ | .feqD _ _ _
  | .fcvtWD _ _ _ | .fcvtWuD _ _ _ | .fcvtDW _ _ _ | .fcvtDWu _ _ _ | .fclassD _ _ | .fcvtLD _ _ _ | .fcvtLuD _ _ _
  | .fcvtDL _ _ _ | .fcvtDLu _ _ _ | .fmvXD _ _ | .fmvDX _ _ => false

/-- A conditional branch: a control transfer that writes no register (R135 to R140). -/
def Instr.isBranch (i : Instr) : Bool := i.transfersControl && i.xDest.isNone

/-- An LR of `n` bytes (R229, R251). -/
def Instr.isLR (i : Instr) (n : Nat) : Prop := i.touchesReservation = true ∧ ∃ rs1, i.access = some (.load, true, n, rs1, 0)

/-- An SC of `n` bytes (R230, R252). -/
def Instr.isSC (i : Instr) (n : Nat) : Prop := i.touchesReservation = true ∧ ∃ rs1, i.access = some (.store, true, n, rs1, 0)

end Sys2Proof

namespace Sys2Proof.Machine

/-- The instruction that the bytes the next step fetches spell, if they spell one (R11). -/
def State.decoded (s : State) : Option Instr :=
  match decodeBytes s.cfg.xlen s.fetch.1 with
  | .ok (i, _) => some i
  | .error _ => none

/-- The effective address of the memory access of that instruction (R61). -/
def State.accessAddr (s : State) : Option Nat :=
  s.decoded.bind fun i => i.access.map fun (_, _, _, rs1, imm) => s.ofInt (s.xInt rs1 + imm.toInt)

/-- An infinite run of the machine. -/
def IsRun (r : Nat → State) : Prop := ∀ k, step (r k) = .next (r (k + 1))

/-- Step `k` of the run takes a draw of R227 (f): it executes an SC whose reservation holds. -/
def TakesDraw (r : Nat → State) (k : Nat) : Prop := (r (k + 1)).scDraws = (r k).scDraws + 1

/-- Where a constrained loop stands: the address of its LR, and how many bytes further on its SC stands. -/
structure LoopPlace where
  /-- The address of the LR. -/
  lr : Nat
  /-- The distance of the SC from the LR, in bytes. -/
  sc : Nat
deriving DecidableEq, Repr

/-- How far the pc is from the LR of the loop, in bytes modulo 2^XLEN. -/
def LoopPlace.offset (l : LoopPlace) (s : State) : Nat := s.ofInt ((s.pc.toNat : Int) - l.lr)

/-- The step from `s` to `t` is one that a constrained loop at `l` with accesses of `n` bytes makes (R228, R426): it executes
an instruction of the 64 bytes from the LR on, namely the LR, or the SC, or another admitted instruction that goes forward, or,
after the SC, a branch that retries from the LR (log entry 19). -/
def LoopPlace.Step (l : LoopPlace) (n : Nat) (s t : State) : Prop :=
  l.offset s < 64 ∧ ∃ i, s.decoded = some i ∧
    if l.offset s = 0 then i.isLR n
    else if l.offset s = l.sc then i.isSC n
    else i.allowedInLoop = true ∧
      (l.offset s < l.offset t ∨ (l.sc < l.offset s ∧ i.isBranch = true ∧ l.offset t = 0))

/-- The run is one of a constrained loop at `l` with accesses of `n` bytes that the hart never leaves: every step is a step of
the loop, and each SC goes to the address of the LR before it (R228). -/
structure RunsConstrainedLoop (r : Nat → State) (l : LoopPlace) (n : Nat) : Prop where
  /-- It is a run. -/
  isRun : IsRun r
  /-- The SC stands after the LR. -/
  scAfterLr : 0 < l.sc
  /-- Every step is a step of the loop. -/
  inLoop : ∀ k, l.Step n (r k) (r (k + 1))
  /-- The SC goes to the address of the latest LR. -/
  sameAddress : ∀ j k, j < k → l.offset (r j) = 0 → l.offset (r k) = l.sc →
    (∀ m, j < m → m < k → l.offset (r m) ≠ 0) → (r j).accessAddr = (r k).accessAddr

/-- The forward-progress rule of R228 for the run `r`, as a constraint on the draws of R227 (f): when the run from some step on
is one of a constrained loop and takes draws for ever, one of these draws does not fail. It constrains no draw of any other
LR/SC sequence: such a run is fair also when every draw fails (log entry 19). -/
def ScFair (r : Nat → State) : Prop :=
  ∀ (k₀ : Nat) (l : LoopPlace) (n : Nat), RunsConstrainedLoop (fun k => r (k₀ + k)) l n →
    (∀ m, ∃ k, m ≤ k ∧ TakesDraw r k) → ∃ k, k₀ ≤ k ∧ TakesDraw r k ∧ Config.scFails (r k).scDraws = false

/-- One round of an LR/SC retry: LR.W, then SC.W through the same address register. -/
def lrScRound (rd rd' rs1 rs2 : XReg) (s : State) : Res :=
  match exec (.lrW rd rs1 false false) s with
  | .next t => exec (.scW rd' rs2 rs1 false false) t
  | .fault f => .fault f
  | .refused r => .refused r

/-- That many rounds one after another, and one more. -/
def lrScRounds (rd rd' rs1 rs2 : XReg) : Nat → State → Res
  | 0, s => lrScRound rd rd' rs1 rs2 s
  | n + 1, s =>
    match lrScRound rd rd' rs1 rs2 s with
    | .next t => lrScRounds rd rd' rs1 rs2 n t
    | .fault f => .fault f
    | .refused r => .refused r

end Sys2Proof.Machine
end

