-- ==== Sys2Proof/Certificates/Slice0/Obligations.lean ====
section
/-!
DEFINITION. The statements for the provers. Each says what an instruction or the machine does, after a rule of spec/; the
terms (results, frames, traps, the invariant) are those of Sys2Proof/Safety.lean.
-/
open Sys2Proof Sys2Proof.Machine

/-- LUI, JAL, BEQ, SW, SRAI (both widths), LD, MULHU, DIVW, LR.W with aq and rl, AMOADD.D, FMADD.S, FCVT.LU.D, FENCE
and FENCE.I words of the spec decode to the instructions the spec gives them, and the words of ECALL, all zeros and
all ones decode to none. -/
def Obligations.SpecWordsDecode : Prop :=
  decode .rv32 0x800002b7 = some (.lui 5 0x80000) ∧ decode .rv64 0xff9ff0ef = some (.jal 1 (-8)) ∧
  decode .rv32 0x00208863 = some (.beq 1 2 16) ∧ decode .rv64 0xfe312e23 = some (.sw 3 2 (-4)) ∧
  decode .rv32 0x4040d193 = some (.srai32 3 1 4) ∧ decode .rv64 0x43f0d193 = some (.srai64 3 1 63) ∧
  decode .rv64 0xff813283 = some (.ld 5 2 (-8)) ∧ decode .rv32 0x0220b1b3 = some (.mulhu 3 1 2) ∧
  decode .rv64 0x0220c1bb = some (.divw 3 1 2) ∧ decode .rv32 0x160122af = some (.lrW 5 2 true true) ∧
  decode .rv64 0x003132af = some (.amoaddD 5 3 2 false false) ∧ decode .rv32 0x1820f243 = some (.fmaddS 4 1 2 3 7) ∧
  decode .rv64 0xc23092d3 = some (.fcvtLuD 5 1 1) ∧ decode .rv32 0x0330000f = some (.fence 3 3) ∧
  decode .rv64 0x0000100f = some .fenceI ∧ decode .rv64 0x00000073 = none ∧ decode .rv32 0 = none ∧
  decode .rv64 0xffffffff = none

/-- For both XLEN and every instruction that has an encoding at that XLEN, with every operand at every value, the
decoder applied to the encoded word answers that instruction. -/
def Obligations.DecodeOfEncodeIsTheInstruction : Prop :=
  ∀ (xl : XLen) (i : Instr), i.wf xl = true → decode xl (encode i) = some i

/-- If a word decodes at an XLEN to an instruction, that instruction is well-formed at that XLEN and its encoding is
the word: no bit of a legal word is without meaning. -/
def Obligations.EncodeOfDecodeIsTheWord : Prop :=
  ∀ (xl : XLen) (w : Word) (i : Instr), decode xl w = some i → i.wf xl = true ∧ encode i = w

/-- Two rows of the opcode table (by their positions) that both match the same word at the same XLEN are the same row.
-/
def Obligations.AtMostOneRowMatches : Prop :=
  ∀ (xl : XLen) (w : Word) (j k : Nat) (r q : Row), opcodeTable[j]? = some r → opcodeTable[k]? = some q →
    r.isRowOf xl w = true → q.isRowOf xl w = true → j = k

/-- The signed values of the I-, S-, B- and J-immediates and the U-immediate of a word are the weighted sums of the
instruction fields that R103 to R107 name, with inst[31] as the sign. -/
def Obligations.ImmediatesAssembleBitByBit : Prop :=
  ∀ w : Word,
    let b (hi lo : Nat) : Int := ((w.toNat / 2 ^ lo % 2 ^ (hi + 1 - lo) : Nat) : Int)
    (immI w).toInt = b 30 20 - 2 ^ 11 * b 31 31 ∧
    (immS w).toInt = b 11 7 + 2 ^ 5 * b 30 25 - 2 ^ 11 * b 31 31 ∧
    (immB w).toInt = 2 * b 11 8 + 2 ^ 5 * b 30 25 + 2 ^ 11 * b 7 7 - 2 ^ 12 * b 31 31 ∧
    (immU w ++ (0 : BitVec 12)).toInt = 2 ^ 12 * b 30 12 - 2 ^ 31 * b 31 31 ∧
    (immJ w).toInt = 2 * b 30 21 + 2 ^ 11 * b 20 20 + 2 ^ 12 * b 19 12 - 2 ^ 20 * b 31 31

/-- With XLEN = 32 no row of the five 64-bit tables decodes and a shift-immediate word with inst[25] = 1 is illegal;
with XLEN = 64 SLLI, SRLI, SRAI take six-bit amounts and SLLIW, SRLIW, SRAIW with inst[25] = 1 are illegal; no step
changes XLEN. (formalises R113) -/
def Obligations.XlenDecidesTheDecoding : Prop :=
  (∀ (w : Word) (i : Instr), decode .rv32 w = some i → i.admission ≠ .only64) ∧
  (∀ (rd rs1 : XReg) (shamt : BitVec 5),
    decode .rv32 (encShift5 0b0000000 shamt rs1 0b001 rd 0b0010011) = some (.slli32 rd rs1 shamt) ∧
    decode .rv32 (encShift5 0b0000000 shamt rs1 0b101 rd 0b0010011) = some (.srli32 rd rs1 shamt) ∧
    decode .rv32 (encShift5 0b0100000 shamt rs1 0b101 rd 0b0010011) = some (.srai32 rd rs1 shamt) ∧
    decode .rv32 (encShift5 0b0000001 shamt rs1 0b001 rd 0b0010011) = none ∧
    decode .rv32 (encShift5 0b0000001 shamt rs1 0b101 rd 0b0010011) = none ∧
    decode .rv32 (encShift5 0b0100001 shamt rs1 0b101 rd 0b0010011) = none ∧
    decode .rv64 (encShift5 0b0000000 shamt rs1 0b001 rd 0b0011011) = some (.slliw rd rs1 shamt) ∧
    decode .rv64 (encShift5 0b0000000 shamt rs1 0b101 rd 0b0011011) = some (.srliw rd rs1 shamt) ∧
    decode .rv64 (encShift5 0b0100000 shamt rs1 0b101 rd 0b0011011) = some (.sraiw rd rs1 shamt) ∧
    decode .rv64 (encShift5 0b0000001 shamt rs1 0b001 rd 0b0011011) = none ∧
    decode .rv64 (encShift5 0b0000001 shamt rs1 0b101 rd 0b0011011) = none ∧
    decode .rv64 (encShift5 0b0100001 shamt rs1 0b101 rd 0b0011011) = none) ∧
  (∀ (rd rs1 : XReg) (shamt : BitVec 6),
    decode .rv64 (encShift6 0b000000 shamt rs1 0b001 rd 0b0010011) = some (.slli64 rd rs1 shamt) ∧
    decode .rv64 (encShift6 0b000000 shamt rs1 0b101 rd 0b0010011) = some (.srli64 rd rs1 shamt) ∧
    decode .rv64 (encShift6 0b010000 shamt rs1 0b101 rd 0b0010011) = some (.srai64 rd rs1 shamt)) ∧
  ∀ s t : State, step s = .next t → t.cfg.xlen = s.cfg.xlen

/-- A fetched word that matches no row at the current XLEN raises IllegalInstruction with the word as trap value,
zero-extended, and changes nothing but the status and the model's own count of fetch draws (that the count advances is
the model's choice, log entry 24); the kinds of words R111 lists match no row. -/
def Obligations.IllegalWordsTrap : Prop :=
  (∀ (s : State) (b0 b1 b2 b3 : Byte), s.status = .running → s.pc.toNat % 4 = 0 → s.atHalt = false →
    s.fetchAddrs.all s.cfg.mapped = true → s.fetch.1 = [b0, b1, b2, b3] →
    decode s.cfg.xlen (wordOfBytes b0 b1 b2 b3) = none →
    step s = .next { s with
      fetchDraws := s.fetch.2
      status := .trapped .illegalInstruction ((wordOfBytes b0 b1 b2 b3).setWidth 64) s.pc }) ∧
  ∀ (xl : XLen) (w : Word),
    (w.extractLsb' 0 2 ≠ 3 → decode xl w = none) ∧
    (w.extractLsb' 0 7 ∉ [0x03, 0x07, 0x0f, 0x13, 0x17, 0x1b, 0x23, 0x27, 0x2f, 0x33, 0x37, 0x3b, 0x43, 0x47, 0x4b,
      0x4f,
      0x53, 0x63, 0x67, 0x6f] → decode xl w = none) ∧
    (w.extractLsb' 0 7 = 0x33 → w.extractLsb' 25 7 ∉ [0x00, 0x20, 0x01] → decode xl w = none) ∧
    (w.extractLsb' 0 7 = 0x63 → w.extractLsb' 12 3 ∈ [2, 3] → decode xl w = none) ∧
    (w.extractLsb' 0 7 = 0x03 → w.extractLsb' 12 3 = 7 → decode xl w = none) ∧
    (w.extractLsb' 0 7 ∈ [0x43, 0x47, 0x4b, 0x4f, 0x53] → w.extractLsb' 25 2 ∈ [2, 3] → decode xl w = none) ∧
    (w.extractLsb' 0 7 = 0x2f → w.extractLsb' 12 3 ∉ [2, 3] → decode xl w = none) ∧
    (w.extractLsb' 0 7 = 0x2f → w.extractLsb' 27 5 = 2 → w.extractLsb' 20 5 ≠ 0 → decode xl w = none) ∧
    (w = 0 ∨ w = 0xffffffff → decode xl w = none)

/-- At a state whose hart runs, whose pc is a multiple of 4 outside HALT_SET and whose four instruction bytes exist,
when the bytes the fetch sees decode to i, the step is exec of i at that state, with only the model's count of fetch
draws brought up to date. -/
def Obligations.StepRunsTheDecodedInstruction : Prop :=
  ∀ (s : State) (b0 b1 b2 b3 : Byte) (i : Instr), s.status = .running → s.pc.toNat % 4 = 0 → s.atHalt = false →
    s.fetchAddrs.all s.cfg.mapped = true → s.fetch.1 = [b0, b1, b2, b3] →
    decode s.cfg.xlen (wordOfBytes b0 b1 b2 b3) = some i → step s = exec i { s with fetchDraws := s.fetch.2 }

/-- When none of the four instruction bytes awaits a FENCE.I, the fetch sees the bytes of memory at pc, pc + 1, pc +
2, pc + 3 (modulo 2^XLEN) and takes no draw. -/
def Obligations.FencedFetchReadsMemory : Prop :=
  ∀ s : State, (∀ c ∈ s.unfenced, c.1 ∉ s.fetchAddrs) →
    s.fetch = ([memByte s.mem (s.pc.toNat % s.span), memByte s.mem ((s.pc.toNat + 1) % s.span),
      memByte s.mem ((s.pc.toNat + 2) % s.span), memByte s.mem ((s.pc.toNat + 3) % s.span)], s.fetchDraws)

/-- After a byte at a is set to v where fetches saw the values cs of it (only the memory byte, when nothing was
recorded), a fetch of it sees v or one of the earlier values; and after FENCE.I, which changes no register and no
memory byte, every fetch sees memory. -/
def Obligations.UnfencedFetchIsACandidate : Prop :=
  (∀ (m : Memory) (u : Unfenced) (draws a : Nat) (v : Byte), Memory.wf m = true → Unfenced.wf u = true →
    (fetchByte (memInsert a v m) (noteStore a (memByte m a) v u) draws a).1
      ∈ v :: (u.lookup a).getD [memByte m a]) ∧
  ∀ s : State, ∃ t, exec .fenceI s = .next t ∧ t.pc.toNat = s.nextPc ∧ t.mem = s.mem ∧ t.x = s.x ∧ t.f = s.f ∧
    t.fcsr = s.fcsr ∧ t.cfg = s.cfg ∧ t.status = s.status ∧ KeepsReservation s t ∧ t.fetchDraws = s.fetchDraws ∧
    ∀ draws a, fetchByte t.mem t.unfenced draws a = (memByte s.mem a, draws)

/-- A step of a running hart any of whose four instruction bytes does not exist raises InstructionAccessFault with the
pc as trap value and changes nothing else (a trap is a next state: the model's reading, log entry 8); so does the step
after a JAL to an aligned vacant address, which itself completes. -/
def Obligations.FetchOfVacantBytesTraps : Prop :=
  (∀ s : State, s.status = .running → s.pc.toNat % 4 = 0 → s.pc.toNat < s.span → s.atHalt = false →
    s.fetchAddrs.all s.cfg.mapped = false → step s = .next (s.takeTrap .instructionAccessFault s.pc)) ∧
  ∀ (s : State) (rd : XReg) (off : BitVec 21), s.status = .running → s.cfg.haltSet = [] →
    s.ofInt (s.pc.toNat + off.toInt) % 4 = 0 → s.cfg.mapped (s.ofInt (s.pc.toNat + off.toInt)) = false →
    ∃ t, exec (.jal rd off) s = .next t ∧ t.xNat rd = (if rd = 0 then 0 else s.nextPc) ∧
      t.pc.toNat = s.ofInt (s.pc.toNat + off.toInt) ∧ step t = .next (t.takeTrap .instructionAccessFault t.pc)

/-- A running hart whose pc is in HALT_SET becomes stopped, with nothing else changed, and a step of a stopped hart is
the fault hartStopped. That becoming stopped takes a step of its own (log entry 28) and that a stopped hart's step is
a fault (log entry 8) are the model's choices. -/
def Obligations.HaltSetStopsTheHart : Prop :=
  (∀ s : State, s.status = .running → s.pc.toNat % 4 = 0 → s.pc.toNat < s.span → s.pc ∈ s.cfg.haltSet →
    step s = .next { s with status := .stopped }) ∧
  ∀ s : State, s.status = .stopped → step s = .fault .hartStopped

/-- Raising an exception E with value v at pc p sets the status to trapped(E, v, p) and changes nothing else, whatever
instruction raised it; a trapped hart takes no further step, ever: no other state is reachable from it. That the entry
is a next state, and a step of a trapped hart the fault hartTrapped, is the model's reading of R388 (log entry 8). -/
def Obligations.TrapEntryRecordsAndStops : Prop :=
  (∀ (s : State) (e : Exc) (v : DWord), ∃ t, raise s e v = .next t ∧ t.status = .trapped e v s.pc ∧
    t = { s with status := t.status }) ∧
  (∀ (i : Instr) (s t : State), s.status = .running → exec i s = .next t → t.status ≠ .running →
    ∃ e v, t = { s with status := .trapped e v s.pc }) ∧
  ∀ (s u : State) (e : Exc) (v p : DWord), s.status = .trapped e v p → Reachable s u →
    u = s ∧ step u = .fault (.hartTrapped e v p)

/-- exec answers a next state for every instruction at every state, and so does the step of every state whose hart
runs and whose pc is a multiple of 4. It rests on the model's choices that a trap is a next state (log entry 8), that
exec runs or traps a 64-bit row at XLEN = 32 too (log entry 12), and that exec does not look at the status (log entry
13). -/
def Obligations.EveryInstructionAnswersANextState : Prop :=
  (∀ (i : Instr) (s : State), ∃ t, exec i s = .next t) ∧
  ∀ s : State, s.status = .running → s.pc.toNat % 4 = 0 → ∃ t, step s = .next t

/-- An instruction that neither transfers control nor raises sets the pc to pc + 4 modulo 2^XLEN, 0 from 2^XLEN - 4;
the pc after launch and after every reachable step is a multiple of 4; a control transfer to an address that is not
one leaves the pc as it was. (formalises R24) -/
def Obligations.PcAdvancesByFour : Prop :=
  (∀ (i : Instr) (s t : State), s.status = .running → i.transfersControl = false → exec i s = .next t →
    t.status = .running →
    t.pc.toNat = (s.pc.toNat + 4) % 2 ^ s.cfg.xlen.bits) ∧
  (∀ (i : Instr) (s t : State), s.status = .running → i.transfersControl = false → exec i s = .next t →
    t.status = .running →
    s.pc.toNat = 2 ^ s.cfg.xlen.bits - 4 → t.pc.toNat = 0) ∧
  (∀ (l : Launch) (s t : State), State.launch l = .next s → Reachable s t → t.pc.toNat % 4 = 0) ∧
  ∀ (i : Instr) (s t : State), i.transfersControl = true → exec i s = .next t → s.pc.toNat % 4 = 0 →
    t.pc.toNat % 4 = 0 ∧ (t.status ≠ s.status → t.pc = s.pc)

/-- At a state with canonical memory and a pc that is a multiple of 4, the step of s.withFetchWord 32 w is exec of
what w decodes to, at that state. withFetchWord is the model's own interface, standing for a load from outside the
machine (log entry 14). -/
def Obligations.PlacedWordIsExecutedNext : Prop :=
  ∀ (s : State) (w : Nat) (i : Instr), Memory.wf s.mem = true → s.pc.toNat % 4 = 0 →
    decode s.cfg.xlen (BitVec.ofNat 32 w) = some i → step (s.withFetchWord 32 w) = exec i (s.withFetchWord 32 w)

/-- LUI writes the sign-extended U-immediate and AUIPC its sum with the pc, modulo 2^XLEN; nothing else changes but
the pc, which advances. -/
def Obligations.UpperImmediateResults : Prop :=
  ∀ (s : State) (rd : XReg) (imm : BitVec 20),
    let v := (imm ++ (0 : BitVec 12)).toInt
    WritesX s (.lui rd imm) rd (s.ofInt v) ∧ WritesX s (.auipc rd imm) rd (s.ofInt (s.pc.toNat + v))

/-- JAL goes to pc + imm and JALR to (x[rs1] + imm) with bit 0 cleared, both modulo 2^XLEN, and rd receives pc + 4,
rs1 being read first; a target that is not a multiple of 4 raises InstructionAddressMisaligned with the target, and rd
is not written. -/
def Obligations.JumpsTransferOrRaise : Prop :=
  ∀ (s : State) (rd rs1 : XReg) (off : BitVec 21) (imm : BitVec 12),
    let t := s.ofInt (s.pc.toNat + off.toInt)
    let u := s.ofInt (s.xInt rs1 + imm.toInt) / 2 * 2
    (t % 4 = 0 → Transfers s (.jal rd off) t rd s.nextPc) ∧
    (t % 4 ≠ 0 → Traps s (.jal rd off) .instructionAddressMisaligned t) ∧
    (u % 4 = 0 → Transfers s (.jalr rd rs1 imm) u rd s.nextPc) ∧
    (u % 4 ≠ 0 → Traps s (.jalr rd rs1 imm) .instructionAddressMisaligned u)

/-- BEQ, BNE, BLT, BGE (signed), BLTU, BGEU (unsigned) go to pc + imm modulo 2^XLEN when their condition holds and
advance otherwise, writing no register; a taken branch to a target that is not a multiple of 4 raises with the target,
one not taken never raises. -/
def Obligations.BranchesCompareAndTransfer : Prop :=
  ∀ (s : State) (rs1 rs2 : XReg) (off : BitVec 13),
    let t := s.ofInt (s.pc.toNat + off.toInt)
    BranchesTo s (.beq rs1 rs2 off) (s.xNat rs1 = s.xNat rs2) t ∧
      BranchesTo s (.bne rs1 rs2 off) (s.xNat rs1 ≠ s.xNat rs2) t ∧
    BranchesTo s (.blt rs1 rs2 off) (s.xInt rs1 < s.xInt rs2) t ∧
      BranchesTo s (.bge rs1 rs2 off) (s.xInt rs2 ≤ s.xInt rs1) t ∧
    BranchesTo s (.bltu rs1 rs2 off) (s.xNat rs1 < s.xNat rs2) t ∧
      BranchesTo s (.bgeu rs1 rs2 off) (s.xNat rs2 ≤ s.xNat rs1) t

/-- Where the bytes at x[rs1] + imm exist and the access is aligned or MISALIGNED_DATA = emulate, a load writes the
little-endian value of its 1, 2, 4 or 8 bytes, sign- or zero-extended, to rd (nothing for x0) and changes nothing
else; LWU and LD with XLEN = 64. -/
def Obligations.LoadsExtendLittleEndianBytes : Prop :=
  ∀ (s : State) (rd rs1 : XReg) (imm : BitVec 12),
    let a := s.ea rs1 imm
    let v (n : Nat) := s.bytesNat (byteAddrs a n)
    (s.plainAccessible a 1 → WritesX s (.lb rd rs1 imm) rd (s.ofInt (signedBytes 1 (v 1))) ∧
      WritesX s (.lbu rd rs1 imm) rd (v 1)) ∧
    (s.plainAccessible a 2 → WritesX s (.lh rd rs1 imm) rd (s.ofInt (signedBytes 2 (v 2))) ∧
      WritesX s (.lhu rd rs1 imm) rd (v 2)) ∧
    (s.plainAccessible a 4 → WritesX s (.lw rd rs1 imm) rd (s.ofInt (signedBytes 4 (v 4)))) ∧
    (s.cfg.xlen = .rv64 → s.plainAccessible a 4 → WritesX s (.lwu rd rs1 imm) rd (v 4)) ∧
    (s.cfg.xlen = .rv64 → s.plainAccessible a 8 → WritesX s (.ld rd rs1 imm) rd (v 8))

/-- Where the bytes at x[rs1] + imm exist and the access is aligned or MISALIGNED_DATA = emulate, a store makes its 1,
2, 4 or 8 bytes those of the low part of x[rs2], little-endian, and changes no other byte, no register and not the
reservation. -/
def Obligations.StoresWriteTheLowBytes : Prop :=
  ∀ (s : State) (rs2 rs1 : XReg) (imm : BitVec 12), Memory.wf s.mem = true →
    let a := s.ea rs1 imm
    (s.plainAccessible a 1 → StoresAt s (.sb rs2 rs1 imm) (byteAddrs a 1) (s.xNat rs2)) ∧
    (s.plainAccessible a 2 → StoresAt s (.sh rs2 rs1 imm) (byteAddrs a 2) (s.xNat rs2)) ∧
    (s.plainAccessible a 4 → StoresAt s (.sw rs2 rs1 imm) (byteAddrs a 4) (s.xNat rs2)) ∧
    (s.cfg.xlen = .rv64 → s.plainAccessible a 8 → StoresAt s (.sd rs2 rs1 imm) (byteAddrs a 8) (s.xNat rs2))

/-- The effective address is x[rs1] plus the sign-extended immediate modulo 2^XLEN, and the n bytes of an access at a
are a, a + 1, ..., a + n - 1 modulo 2^XLEN, in that order. -/
def Obligations.AccessBytesAreConsecutiveModuloTheSpace : Prop :=
  ∀ (s : State) (rs1 : XReg) (imm : BitVec 12),
    (s.ea rs1 imm).toNat = s.ofInt (s.xInt rs1 + imm.toInt) ∧
    ∀ (a : BitVec s.cfg.xlen.bits) (n : Nat), byteAddrs a n = (List.range n).map fun k => (a.toNat + k) % s.span

/-- Each writes its result of x[rs1] and the sign-extended immediate, as integers modulo 2^XLEN (SLTIU compares
unsigned after the sign extension), advances the pc and changes nothing else. -/
def Obligations.ImmediateArithmeticResults : Prop :=
  ∀ (s : State) (rd rs1 : XReg) (imm : BitVec 12),
    let v := s.ofInt imm.toInt
    WritesX s (.addi rd rs1 imm) rd (s.ofInt (s.xInt rs1 + imm.toInt)) ∧
    WritesX s (.slti rd rs1 imm) rd (if s.xInt rs1 < imm.toInt then 1 else 0) ∧
    WritesX s (.sltiu rd rs1 imm) rd (if s.xNat rs1 < v then 1 else 0) ∧
    WritesX s (.xori rd rs1 imm) rd (s.xNat rs1 ^^^ v) ∧ WritesX s (.ori rd rs1 imm) rd (s.xNat rs1 ||| v) ∧
    WritesX s (.andi rd rs1 imm) rd (s.xNat rs1 &&& v)

/-- SLLI multiplies by 2^shamt modulo 2^XLEN, SRLI divides the unsigned and SRAI the signed value by 2^shamt rounding
down: five-bit amounts in the rows of XLEN = 32, six-bit amounts in those of XLEN = 64. -/
def Obligations.ImmediateShiftResults : Prop :=
  ∀ (s : State) (rd rs1 : XReg) (sh : BitVec 5) (sh6 : BitVec 6),
    (s.cfg.xlen = .rv32 →
      WritesX s (.slli32 rd rs1 sh) rd (s.xNat rs1 * 2 ^ sh.toNat % 2 ^ 32) ∧
      WritesX s (.srli32 rd rs1 sh) rd (s.xNat rs1 / 2 ^ sh.toNat) ∧
      WritesX s (.srai32 rd rs1 sh) rd (s.ofInt (s.xInt rs1 / 2 ^ sh.toNat))) ∧
    (s.cfg.xlen = .rv64 →
      WritesX s (.slli64 rd rs1 sh6) rd (s.xNat rs1 * 2 ^ sh6.toNat % 2 ^ 64) ∧
      WritesX s (.srli64 rd rs1 sh6) rd (s.xNat rs1 / 2 ^ sh6.toNat) ∧
      WritesX s (.srai64 rd rs1 sh6) rd (s.ofInt (s.xInt rs1 / 2 ^ sh6.toNat)))

/-- Each writes its result as integers modulo 2^XLEN, the shifts taking their amount from x[rs2] modulo XLEN; integer
overflow wraps and signals nothing; nothing else changes. -/
def Obligations.RegisterArithmeticResults : Prop :=
  ∀ (s : State) (rd rs1 rs2 : XReg),
    let k := s.xNat rs2 % s.cfg.xlen.bits
    WritesX s (.add rd rs1 rs2) rd (s.ofInt (s.xInt rs1 + s.xInt rs2)) ∧
    WritesX s (.sub rd rs1 rs2) rd (s.ofInt (s.xInt rs1 - s.xInt rs2)) ∧
    WritesX s (.sll rd rs1 rs2) rd (s.xNat rs1 * 2 ^ k % s.span) ∧
    WritesX s (.slt rd rs1 rs2) rd (if s.xInt rs1 < s.xInt rs2 then 1 else 0) ∧
    WritesX s (.sltu rd rs1 rs2) rd (if s.xNat rs1 < s.xNat rs2 then 1 else 0) ∧
    WritesX s (.xor rd rs1 rs2) rd (s.xNat rs1 ^^^ s.xNat rs2) ∧ WritesX s (.srl rd rs1 rs2) rd (s.xNat rs1 / 2 ^ k) ∧
    WritesX s (.sra rd rs1 rs2) rd (s.ofInt (s.xInt rs1 / 2 ^ k)) ∧
    WritesX s (.or rd rs1 rs2) rd (s.xNat rs1 ||| s.xNat rs2) ∧
      WritesX s (.and rd rs1 rs2) rd (s.xNat rs1 &&& s.xNat rs2)

/-- FENCE with any sets advances the pc and changes nothing else; LR, SC and the nine AMOs of each width do the same
whatever their aq and rl bits. That they have no effect at all is deduced for one hart (log entry 27). -/
def Obligations.OrderingBitsAndFenceHaveNoEffectOnOneHart : Prop :=
  (∀ (s : State) (pred succ : BitVec 4), ∃ t, exec (.fence pred succ) s = .next t ∧ t.pc.toNat = s.nextPc ∧
    t = { s with pc := t.pc }) ∧
  ∀ (s : State) (rd rs2 rs1 : XReg) (aq rl : Bool),
    exec (.lrW rd rs1 aq rl) s = exec (.lrW rd rs1 false false) s ∧
    exec (.scW rd rs2 rs1 aq rl) s = exec (.scW rd rs2 rs1 false false) s ∧
    exec (.amoswapW rd rs2 rs1 aq rl) s = exec (.amoswapW rd rs2 rs1 false false) s ∧
    exec (.amoaddW rd rs2 rs1 aq rl) s = exec (.amoaddW rd rs2 rs1 false false) s ∧
    exec (.amoxorW rd rs2 rs1 aq rl) s = exec (.amoxorW rd rs2 rs1 false false) s ∧
    exec (.amoorW rd rs2 rs1 aq rl) s = exec (.amoorW rd rs2 rs1 false false) s ∧
    exec (.amoandW rd rs2 rs1 aq rl) s = exec (.amoandW rd rs2 rs1 false false) s ∧
    exec (.amominW rd rs2 rs1 aq rl) s = exec (.amominW rd rs2 rs1 false false) s ∧
    exec (.amomaxW rd rs2 rs1 aq rl) s = exec (.amomaxW rd rs2 rs1 false false) s ∧
    exec (.amominuW rd rs2 rs1 aq rl) s = exec (.amominuW rd rs2 rs1 false false) s ∧
    exec (.amomaxuW rd rs2 rs1 aq rl) s = exec (.amomaxuW rd rs2 rs1 false false) s ∧
    (s.cfg.xlen = .rv64 →
      exec (.lrD rd rs1 aq rl) s = exec (.lrD rd rs1 false false) s ∧
      exec (.scD rd rs2 rs1 aq rl) s = exec (.scD rd rs2 rs1 false false) s ∧
      exec (.amoswapD rd rs2 rs1 aq rl) s = exec (.amoswapD rd rs2 rs1 false false) s ∧
      exec (.amoaddD rd rs2 rs1 aq rl) s = exec (.amoaddD rd rs2 rs1 false false) s ∧
      exec (.amoxorD rd rs2 rs1 aq rl) s = exec (.amoxorD rd rs2 rs1 false false) s ∧
      exec (.amoorD rd rs2 rs1 aq rl) s = exec (.amoorD rd rs2 rs1 false false) s ∧
      exec (.amoandD rd rs2 rs1 aq rl) s = exec (.amoandD rd rs2 rs1 false false) s ∧
      exec (.amominD rd rs2 rs1 aq rl) s = exec (.amominD rd rs2 rs1 false false) s ∧
      exec (.amomaxD rd rs2 rs1 aq rl) s = exec (.amomaxD rd rs2 rs1 false false) s ∧
      exec (.amominuD rd rs2 rs1 aq rl) s = exec (.amominuD rd rs2 rs1 false false) s ∧
      exec (.amomaxuD rd rs2 rs1 aq rl) s = exec (.amomaxuD rd rs2 rs1 false false) s)

/-- With XLEN = 64, ADDIW, SLLIW, SRLIW, SRAIW, ADDW, SUBW, SLLW, SRLW, SRAW compute on the low 32 bits and write the
32-bit result sign-extended, the register shifts taking their amount modulo 32; nothing else changes. -/
def Obligations.WordArithmeticResults : Prop :=
  ∀ (s : State) (rd rs1 rs2 : XReg) (imm : BitVec 12) (sh : BitVec 5), s.cfg.xlen = .rv64 →
    let k := s.xNat rs2 % 32
    let u : Nat := s.xNat rs1 % 2 ^ 32
    let w (v : Int) := s.ofInt (low32 v)
    WritesX s (.addiw rd rs1 imm) rd (w (s.xInt rs1 + imm.toInt)) ∧
    WritesX s (.slliw rd rs1 sh) rd (w (u * 2 ^ sh.toNat)) ∧
    WritesX s (.srliw rd rs1 sh) rd (w ((u / 2 ^ sh.toNat : Nat) : Int)) ∧
    WritesX s (.sraiw rd rs1 sh) rd (w (low32 u / 2 ^ sh.toNat)) ∧
    WritesX s (.addw rd rs1 rs2) rd (w (s.xInt rs1 + s.xInt rs2)) ∧
    WritesX s (.subw rd rs1 rs2) rd (w (s.xInt rs1 - s.xInt rs2)) ∧
    WritesX s (.sllw rd rs1 rs2) rd (w (u * 2 ^ k)) ∧
    WritesX s (.srlw rd rs1 rs2) rd (w ((u / 2 ^ k : Nat) : Int)) ∧
    WritesX s (.sraw rd rs1 rs2) rd (w (low32 u / 2 ^ k))

/-- MUL writes the low half of the product; MULH, MULHSU, MULHU the high half of the exact signed, signed by unsigned
and unsigned product; MULW (XLEN = 64) the sign-extended low word of the product; nothing else changes. -/
def Obligations.MultiplyResults : Prop :=
  ∀ (s : State) (rd rs1 rs2 : XReg),
    WritesX s (.mul rd rs1 rs2) rd (s.ofInt (s.xInt rs1 * s.xInt rs2)) ∧
    WritesX s (.mulh rd rs1 rs2) rd (s.ofInt (s.xInt rs1 * s.xInt rs2 / s.span)) ∧
    WritesX s (.mulhsu rd rs1 rs2) rd (s.ofInt (s.xInt rs1 * s.xNat rs2 / s.span)) ∧
    WritesX s (.mulhu rd rs1 rs2) rd (s.xNat rs1 * s.xNat rs2 / s.span) ∧
    (s.cfg.xlen = .rv64 → WritesX s (.mulw rd rs1 rs2) rd (s.ofInt (low32 (s.xInt rs1 * s.xInt rs2))))

/-- For L = XLEN, and L = 32 in the word forms (XLEN = 64): by zero DIVU gives 2^L - 1, REMU and REM the dividend, DIV
-1; on signed overflow DIV gives -2^(L-1) and REM 0. Each completes, writes rd and changes nothing else. (formalises
R209) -/
def Obligations.DivisionCornerResults : Prop :=
  ∀ (s : State) (rd rs1 rs2 : XReg),
    (s.xNat rs2 = 0 →
      WritesX s (.divu rd rs1 rs2) rd (s.span - 1) ∧ WritesX s (.remu rd rs1 rs2) rd (s.xNat rs1) ∧
      WritesX s (.div rd rs1 rs2) rd (s.ofInt (-1)) ∧ WritesX s (.rem rd rs1 rs2) rd (s.xNat rs1)) ∧
    (s.xInt rs1 = -2 ^ (s.cfg.xlen.bits - 1) → s.xInt rs2 = -1 →
      WritesX s (.div rd rs1 rs2) rd (s.ofInt (-2 ^ (s.cfg.xlen.bits - 1))) ∧ WritesX s (.rem rd rs1 rs2) rd 0) ∧
    (s.cfg.xlen = .rv64 → low32 (s.xInt rs2) = 0 →
      WritesX s (.divuw rd rs1 rs2) rd (s.ofInt (low32 (2 ^ 32 - 1))) ∧
      WritesX s (.remuw rd rs1 rs2) rd (s.ofInt (low32 (s.xInt rs1))) ∧
      WritesX s (.divw rd rs1 rs2) rd (s.ofInt (-1)) ∧
        WritesX s (.remw rd rs1 rs2) rd (s.ofInt (low32 (s.xInt rs1)))) ∧
    (s.cfg.xlen = .rv64 → low32 (s.xInt rs1) = -2 ^ 31 → low32 (s.xInt rs2) = -1 →
      WritesX s (.divw rd rs1 rs2) rd (s.ofInt (-2 ^ 31)) ∧ WritesX s (.remw rd rs1 rs2) rd 0)

/-- With a divisor other than zero the quotient is rounded toward zero and the remainder is dividend minus divisor
times quotient, with the sign of the dividend, both modulo 2^XLEN (which gives the overflow case too); the word forms
(XLEN = 64) compute on low words and sign-extend. -/
def Obligations.DivisionQuotientAndRemainder : Prop :=
  ∀ (s : State) (rd rs1 rs2 : XReg),
    let a := low32 (s.xInt rs1)
    let b := low32 (s.xInt rs2)
    let ua := s.xNat rs1 % 2 ^ 32
    let ub := s.xNat rs2 % 2 ^ 32
    (s.xNat rs2 ≠ 0 →
      WritesX s (.div rd rs1 rs2) rd (s.ofInt ((s.xInt rs1).tdiv (s.xInt rs2))) ∧
      WritesX s (.rem rd rs1 rs2) rd (s.ofInt ((s.xInt rs1).tmod (s.xInt rs2))) ∧
      WritesX s (.divu rd rs1 rs2) rd (s.xNat rs1 / s.xNat rs2) ∧
      WritesX s (.remu rd rs1 rs2) rd (s.xNat rs1 % s.xNat rs2)) ∧
    (s.cfg.xlen = .rv64 → b ≠ 0 →
      WritesX s (.divw rd rs1 rs2) rd (s.ofInt (low32 (a.tdiv b))) ∧
      WritesX s (.remw rd rs1 rs2) rd (s.ofInt (low32 (a.tmod b))) ∧
      WritesX s (.divuw rd rs1 rs2) rd (s.ofInt (low32 ((ua / ub : Nat) : Int))) ∧
      WritesX s (.remuw rd rs1 rs2) rd (s.ofInt (low32 ((ua % ub : Nat) : Int))))

/-- At an aligned address whose bytes exist, LR writes the sign-extended word or doubleword to rd and sets the
reservation to the aligned block of max(RES_GRANULE, n) bytes that contains it, replacing any earlier one; nothing
else changes (LR.D with XLEN = 64). -/
def Obligations.LoadReservedReadsAndReserves : Prop :=
  ∀ (s : State) (rd rs1 : XReg) (aq rl : Bool), s.cfg.granuleOk = true →
    (s.accessible (s.rX rs1) 4 → ReservesAt s (.lrW rd rs1 aq rl) rd (s.rX rs1) 4) ∧
    (s.cfg.xlen = .rv64 → s.accessible (s.rX rs1) 8 → ReservesAt s (.lrD rd rs1 aq rl) rd (s.rX rs1) 8)

/-- At an aligned address whose bytes exist: without a reservation that contains them SC fails; with one it succeeds
exactly when the free draw does not fail it. Success stores x[rs2] and writes 0 to rd; failure stores nothing and
writes 1. Either way the reservation is cleared and nothing else changes. The draw is the model's free value
Config.scFails of its own counter scDraws (log entry 11). -/
def Obligations.StoreConditionalOutcomes : Prop :=
  ∀ (s : State) (rd rs2 rs1 : XReg) (aq rl : Bool), Memory.wf s.mem = true →
    let a := s.rX rs1
    (s.accessible a 4 → ¬s.holds a 4 → ScEnds s (.scW rd rs2 rs1 aq rl) rd (byteAddrs a 4) (s.xNat rs2) false 0) ∧
    (s.accessible a 4 → s.holds a 4 →
      ScEnds s (.scW rd rs2 rs1 aq rl) rd (byteAddrs a 4) (s.xNat rs2) (!Config.scFails s.scDraws) 1) ∧
    (s.cfg.xlen = .rv64 → s.accessible a 8 → ¬s.holds a 8 →
      ScEnds s (.scD rd rs2 rs1 aq rl) rd (byteAddrs a 8) (s.xNat rs2) false 0) ∧
    (s.cfg.xlen = .rv64 → s.accessible a 8 → s.holds a 8 →
      ScEnds s (.scD rd rs2 rs1 aq rl) rd (byteAddrs a 8) (s.xNat rs2) (!Config.scFails s.scDraws) 1)

/-- Rounds of LR.W and SC.W through one address register, at an aligned address whose bytes exist, the status register
not x0 and LR not overwriting the address or the data: either some number of rounds ends with SC reporting success and
the word stored, or from some draw on every draw of R227 (f) fails. (The numbered draws are the model's form of R227
(f), log entry 11.) -/
def Obligations.RetriedStoreConditionalSucceedsUnlessTheDrawFailsForEver : Prop :=
  ∀ (s : State) (rd rd' rs1 rs2 : XReg), s.cfg.granuleOk = true → Memory.wf s.mem = true → s.accessible (s.rX rs1) 4 →
    rd ≠ rs1 → rd ≠ rs2 → rd' ≠ rs1 → rd' ≠ rs2 → rd' ≠ 0 →
    (∃ n t, lrScRounds rd rd' rs1 rs2 n s = .next t ∧ t.xNat rd' = 0 ∧ t.status = s.status ∧
      t.bytesNat (byteAddrs (s.rX rs1) 4) = s.xNat rs2 % 2 ^ 32) ∨
    ∃ n, ∀ m, n ≤ m → Config.scFails m = true

/-- At an aligned address whose 4 bytes exist, AMOSWAP, AMOADD, AMOXOR, AMOOR, AMOAND, AMOMIN, AMOMAX (signed),
AMOMINU, AMOMAXU write the old value, sign-extended, to rd and their result of the old value and the low 32 bits of
x[rs2] to the 4 bytes at x[rs1], and change nothing else, not even the reservation. -/
def Obligations.AtomicWordUpdates : Prop :=
  ∀ (s : State) (rd rs2 rs1 : XReg) (aq rl : Bool), Memory.wf s.mem = true → s.accessible (s.rX rs1) 4 →
    let as := byteAddrs (s.rX rs1) 4
    let o := s.bytesNat as
    let v := s.xNat rs2 % 2 ^ 32
    let old := s.ofInt (signedBytes 4 o)
    UpdatesAt s (.amoswapW rd rs2 rs1 aq rl) as rd old v ∧
    UpdatesAt s (.amoaddW rd rs2 rs1 aq rl) as rd old (o + v) ∧
    UpdatesAt s (.amoxorW rd rs2 rs1 aq rl) as rd old (o ^^^ v) ∧
    UpdatesAt s (.amoorW rd rs2 rs1 aq rl) as rd old (o ||| v) ∧
    UpdatesAt s (.amoandW rd rs2 rs1 aq rl) as rd old (o &&& v) ∧
    UpdatesAt s (.amominW rd rs2 rs1 aq rl) as rd old (if signedBytes 4 o < signedBytes 4 v then o else v) ∧
    UpdatesAt s (.amomaxW rd rs2 rs1 aq rl) as rd old (if signedBytes 4 v < signedBytes 4 o then o else v) ∧
    UpdatesAt s (.amominuW rd rs2 rs1 aq rl) as rd old (if o < v then o else v) ∧
    UpdatesAt s (.amomaxuW rd rs2 rs1 aq rl) as rd old (if v < o then o else v)

/-- At an aligned address whose 8 bytes exist (XLEN = 64), AMOSWAP, AMOADD, AMOXOR, AMOOR, AMOAND, AMOMIN, AMOMAX
(signed), AMOMINU, AMOMAXU write the old value to rd and their result of the old value and the low 64 bits of x[rs2]
to the 8 bytes at x[rs1], and change nothing else, not even the reservation. -/
def Obligations.AtomicDoublewordUpdates : Prop :=
  ∀ (s : State) (rd rs2 rs1 : XReg) (aq rl : Bool), s.cfg.xlen = .rv64 → Memory.wf s.mem = true →
    s.accessible (s.rX rs1) 8 →
    let as := byteAddrs (s.rX rs1) 8
    let o := s.bytesNat as
    let v := s.xNat rs2 % 2 ^ 64
    let old := s.ofInt (signedBytes 8 o)
    UpdatesAt s (.amoswapD rd rs2 rs1 aq rl) as rd old v ∧
    UpdatesAt s (.amoaddD rd rs2 rs1 aq rl) as rd old (o + v) ∧
    UpdatesAt s (.amoxorD rd rs2 rs1 aq rl) as rd old (o ^^^ v) ∧
    UpdatesAt s (.amoorD rd rs2 rs1 aq rl) as rd old (o ||| v) ∧
    UpdatesAt s (.amoandD rd rs2 rs1 aq rl) as rd old (o &&& v) ∧
    UpdatesAt s (.amominD rd rs2 rs1 aq rl) as rd old (if signedBytes 8 o < signedBytes 8 v then o else v) ∧
    UpdatesAt s (.amomaxD rd rs2 rs1 aq rl) as rd old (if signedBytes 8 v < signedBytes 8 o then o else v) ∧
    UpdatesAt s (.amominuD rd rs2 rs1 aq rl) as rd old (if o < v then o else v) ∧
    UpdatesAt s (.amomaxuD rd rs2 rs1 aq rl) as rd old (if v < o then o else v)

/-- For every load, store, LR, SC and AMO that exists at the XLEN, with effective address a and size n: a misaligned
address raises the misaligned exception of its side when the instruction is atomic or MISALIGNED_DATA = trap;
otherwise a byte outside MEM_MAP raises the access fault of its side; the trap value is a and nothing but the status
changes. One-byte accesses are never misaligned. (formalises R385, R55) -/
def Obligations.DataAccessExceptions : Prop :=
  ∀ (s : State) (i : Instr) (k : Access) (atomic : Bool) (n : Nat) (rs1 : XReg) (imm : BitVec 12),
    i.access = some (k, atomic, n, rs1, imm) → i.admission.admits s.cfg.xlen = true →
    let a := s.ofInt (s.xInt rs1 + imm.toInt)
    let misaligned := a % n ≠ 0 ∧ (atomic = true ∨ s.cfg.misaligned = .trap)
    (misaligned →
      Traps s i (match k with | .load => .loadAddressMisaligned | .store => .storeAmoAddressMisaligned) a) ∧
    (¬misaligned → (∃ j < n, s.cfg.mapped ((a + j) % s.span) = false) →
      Traps s i (match k with | .load => .loadAccessFault | .store => .storeAmoAccessFault) a) ∧
    (n = 1 → ¬misaligned)

/-- For every instruction with an rm field that exists at the XLEN: rm 101 and 110, and rm 111 when frm is 101, 110 or
111, raise IllegalInstruction with the word of the instruction as trap value, also where the result does not depend on
rounding; every other rm names the mode of its code, 111 that of frm. That the trap value is the encoding of the
instruction is deduced from R384 (log entry 16). -/
def Obligations.ReservedRoundingModesTrap : Prop :=
  ∀ (s : State) (i : Instr) (rm : Rm), i.rmField = some rm → i.admission.admits s.cfg.xlen = true →
    (rm = 5 ∨ rm = 6 ∨ (rm = 7 ∧ (s.frm = 5 ∨ s.frm = 6 ∨ s.frm = 7)) →
      Traps s i .illegalInstruction (encode i).toNat) ∧
    (¬(rm = 5 ∨ rm = 6 ∨ (rm = 7 ∧ (s.frm = 5 ∨ s.frm = 6 ∨ s.frm = 7))) →
      s.roundingMode rm = (if rm = 7 then [RMode.rne, .rtz, .rdn, .rup, .rmm][s.frm.toNat]?
        else [RMode.rne, .rtz, .rdn, .rup, .rmm][rm.toNat]?) ∧
      ∃ t, exec i s = .next t ∧ t.status = s.status)

/-- When a running hart executes an instruction that exists at its XLEN, either it goes on running, or it raised an
exception that the table of R404 lists for the instruction and nothing else has changed. -/
def Obligations.OnlyTabledExceptionsAndPrecise : Prop :=
  ∀ (i : Instr) (s t : State), s.status = .running → i.admission.admits s.cfg.xlen = true → exec i s = .next t →
    t.status = .running ∨ ∃ e v, e ∈ i.raisable ∧ t = s.takeTrap e v

/-- Where the access is permitted, FLW writes the boxed word and FLD the doubleword, uninterpreted and without flags;
FSW stores the low four bytes of f[rs2] without a boxing check and FSD all eight; nothing else changes. -/
def Obligations.FloatLoadsAndStores : Prop :=
  ∀ (s : State) (rd rs2 : FReg) (rs1 : XReg) (imm : BitVec 12),
    let a := s.ea rs1 imm
    (s.plainAccessible a 4 →
      WritesF s (.flw rd rs1 imm) rd ((0xffffffff : BitVec 32) ++ BitVec.ofNat 32 (s.bytesNat (byteAddrs a 4)) : BitVec 64)) ∧
    (s.plainAccessible a 8 → WritesF s (.fld rd rs1 imm) rd (BitVec.ofNat 64 (s.bytesNat (byteAddrs a 8)))) ∧
    (Memory.wf s.mem = true → s.plainAccessible a 4 → StoresAt s (.fsw rs2 rs1 imm) (byteAddrs a 4) (s.rF rs2).toNat) ∧
    (Memory.wf s.mem = true → s.plainAccessible a 8 → StoresAt s (.fsd rs2 rs1 imm) (byteAddrs a 8) (s.rF rs2).toNat)

/-- With an effective rounding mode m, FADD.S, FSUB.S, FMUL.S, FDIV.S, FSQRT.S and the four fused forms write the
boxed result of their operation under m on the unboxed operands, OR its flags into fflags, and change nothing else;
the fused forms negate the product and the addend as their rules say. -/
def Obligations.SingleArithmeticResults : Prop :=
  ∀ (s : State) (rd rs1 rs2 rs3 : FReg) (rm : Rm) (m : RMode), s.roundingMode rm = some m →
    let a := unbox32 (s.rF rs1)
    let b := unbox32 (s.rF rs2)
    let c := unbox32 (s.rF rs3)
    let w (i : Instr) (r : BitVec 32 × FFlags) := WritesF s i rd (box32 r.1) r.2
    w (.faddS rd rs1 rs2 rm) (Fmt.f32.add m a b) ∧ w (.fsubS rd rs1 rs2 rm) (Fmt.f32.sub m a b) ∧
    w (.fmulS rd rs1 rs2 rm) (Fmt.f32.mul m a b) ∧ w (.fdivS rd rs1 rs2 rm) (Fmt.f32.div m a b) ∧
    w (.fsqrtS rd rs1 rm) (Fmt.f32.sqrt m a) ∧ w (.fmaddS rd rs1 rs2 rs3 rm) (Fmt.f32.fma m a b c false false) ∧
    w (.fmsubS rd rs1 rs2 rs3 rm) (Fmt.f32.fma m a b c false true) ∧
    w (.fnmsubS rd rs1 rs2 rs3 rm) (Fmt.f32.fma m a b c true false) ∧
    w (.fnmaddS rd rs1 rs2 rs3 rm) (Fmt.f32.fma m a b c true true)

/-- With an effective rounding mode m, FADD.D, FSUB.D, FMUL.D, FDIV.D, FSQRT.D and the four fused forms write the
result of their operation under m on the 64-bit operands, OR its flags into fflags, and change nothing else. -/
def Obligations.DoubleArithmeticResults : Prop :=
  ∀ (s : State) (rd rs1 rs2 rs3 : FReg) (rm : Rm) (m : RMode), s.roundingMode rm = some m →
    let a := s.rF rs1
    let b := s.rF rs2
    let c := s.rF rs3
    let w (i : Instr) (r : BitVec 64 × FFlags) := WritesF s i rd r.1 r.2
    w (.faddD rd rs1 rs2 rm) (Fmt.f64.add m a b) ∧ w (.fsubD rd rs1 rs2 rm) (Fmt.f64.sub m a b) ∧
    w (.fmulD rd rs1 rs2 rm) (Fmt.f64.mul m a b) ∧ w (.fdivD rd rs1 rs2 rm) (Fmt.f64.div m a b) ∧
    w (.fsqrtD rd rs1 rm) (Fmt.f64.sqrt m a) ∧ w (.fmaddD rd rs1 rs2 rs3 rm) (Fmt.f64.fma m a b c false false) ∧
    w (.fmsubD rd rs1 rs2 rs3 rm) (Fmt.f64.fma m a b c false true) ∧
    w (.fnmsubD rd rs1 rs2 rs3 rm) (Fmt.f64.fma m a b c true false) ∧
    w (.fnmaddD rd rs1 rs2 rs3 rm) (Fmt.f64.fma m a b c true true)

/-- The result is rs1 with its sign bit replaced by that of rs2, its complement, or the exclusive-or of the two;
single operands are unboxed and the result boxed; no flag is set even for signalling NaNs. -/
def Obligations.SignInjectionMovesBits : Prop :=
  ∀ (s : State) (rd rs1 rs2 : FReg),
    let a := unbox32 (s.rF rs1)
    let b := unbox32 (s.rF rs2)
    let d := s.rF rs1
    let e := s.rF rs2
    WritesF s (.fsgnjS rd rs1 rs2) rd (box32 (b.extractLsb' 31 1 ++ a.extractLsb' 0 31 : BitVec 32)) ∧
    WritesF s (.fsgnjnS rd rs1 rs2) rd (box32 (~~~b.extractLsb' 31 1 ++ a.extractLsb' 0 31 : BitVec 32)) ∧
    WritesF s (.fsgnjxS rd rs1 rs2) rd
      (box32 ((a.extractLsb' 31 1 ^^^ b.extractLsb' 31 1) ++ a.extractLsb' 0 31 : BitVec 32)) ∧
    WritesF s (.fsgnjD rd rs1 rs2) rd (e.extractLsb' 63 1 ++ d.extractLsb' 0 63 : BitVec 64) ∧
    WritesF s (.fsgnjnD rd rs1 rs2) rd (~~~e.extractLsb' 63 1 ++ d.extractLsb' 0 63 : BitVec 64) ∧
    WritesF s (.fsgnjxD rd rs1 rs2) rd ((d.extractLsb' 63 1 ^^^ e.extractLsb' 63 1) ++ d.extractLsb' 0 63 : BitVec 64)

/-- The instructions write the pattern and flags of min and max; those give the canonical NaN for two NaNs, the other
operand for one, the numerically smaller (greater) operand otherwise, infinities included and -0 counting below +0,
the operand itself for two of one value, and NV exactly when an operand is a signalling NaN. -/
def Obligations.MinMaxPickAnOperand : Prop :=
  (∀ (s : State) (rd rs1 rs2 : FReg),
    let a := unbox32 (s.rF rs1)
    let b := unbox32 (s.rF rs2)
    WritesF s (.fminS rd rs1 rs2) rd (box32 (Fmt.f32.min a b).1) (Fmt.f32.min a b).2 ∧
    WritesF s (.fmaxS rd rs1 rs2) rd (box32 (Fmt.f32.max a b).1) (Fmt.f32.max a b).2 ∧
    WritesF s (.fminD rd rs1 rs2) rd (Fmt.f64.min (s.rF rs1) (s.rF rs2)).1 (Fmt.f64.min (s.rF rs1) (s.rF rs2)).2 ∧
    WritesF s (.fmaxD rd rs1 rs2) rd (Fmt.f64.max (s.rF rs1) (s.rF rs2)).1 (Fmt.f64.max (s.rF rs1) (s.rF rs2)).2) ∧
  ∀ (F : Fmt) (a b : BitVec F.width),
    let va := F.value a
    let vb := F.value b
    ((F.min a b).2 = if va.isSNaN || vb.isSNaN then flagNV else flagsNone) ∧ (F.max a b).2 = (F.min a b).2 ∧
    (va.isNaN = true → vb.isNaN = true → (F.min a b).1 = F.canonicalNaN ∧ (F.max a b).1 = F.canonicalNaN) ∧
    (va.isNaN = true → vb.isNaN = false → (F.min a b).1 = b ∧ (F.max a b).1 = b) ∧
    (va.isNaN = false → vb.isNaN = true → (F.min a b).1 = a ∧ (F.max a b).1 = a) ∧
    (va = .zero true → vb = .zero false → (F.min a b).1 = a ∧ (F.max a b).1 = b ∧ (F.min b a).1 = a ∧
      (F.max b a).1 = b) ∧
    (va.isNaN = false → va = vb → (F.min a b).1 = a ∧ (F.max a b).1 = a) ∧
    (va = .inf true → vb.isNumber = true ∨ vb = .inf false →
      (F.min a b).1 = a ∧ (F.max a b).1 = b ∧ (F.min b a).1 = a ∧ (F.max b a).1 = b) ∧
    (va.isNumber = true → vb = .inf false →
      (F.min a b).1 = a ∧ (F.max a b).1 = b ∧ (F.min b a).1 = a ∧ (F.max b a).1 = b) ∧
    ∀ v w : Rat, va.isRat v → vb.isRat w → v < w →
      (F.min a b).1 = a ∧ (F.max a b).1 = b ∧ (F.min b a).1 = a ∧ (F.max b a).1 = b

/-- They write 1 or 0 to the integer register: the numerical comparison, zeros equal and infinities at the ends; with
a NaN the result is 0, NV set by FLE and FLT for any NaN and by FEQ only for a signalling one. -/
def Obligations.ComparisonsAreNumerical : Prop :=
  (∀ (s : State) (rd : XReg) (rs1 rs2 : FReg),
    let a := unbox32 (s.rF rs1)
    let b := unbox32 (s.rF rs2)
    let w (i : Instr) (r : Bool × FFlags) := WritesX s i rd (if r.1 then 1 else 0) r.2
    w (.fleS rd rs1 rs2) (Fmt.f32.le a b) ∧ w (.fltS rd rs1 rs2) (Fmt.f32.lt a b) ∧
      w (.feqS rd rs1 rs2) (Fmt.f32.eq a b) ∧
    w (.fleD rd rs1 rs2) (Fmt.f64.le (s.rF rs1) (s.rF rs2)) ∧ w (.fltD rd rs1 rs2) (Fmt.f64.lt (s.rF rs1) (s.rF rs2)) ∧
    w (.feqD rd rs1 rs2) (Fmt.f64.eq (s.rF rs1) (s.rF rs2))) ∧
  ∀ (F : Fmt) (a b : BitVec F.width),
    let va := F.value a
    let vb := F.value b
    (va.isNaN = true ∨ vb.isNaN = true → F.le a b = (false, flagNV) ∧ F.lt a b = (false, flagNV) ∧
      F.eq a b = (false, if va.isSNaN || vb.isSNaN then flagNV else flagsNone)) ∧
    (∀ v w : Rat, va.isRat v → vb.isRat w → F.le a b = (decide (v ≤ w), flagsNone) ∧
      F.lt a b = (decide (v < w), flagsNone) ∧ F.eq a b = (decide (v = w), flagsNone)) ∧
    (∀ v : Rat, va.isRat v → vb = .inf true → F.le a b = (false, flagsNone) ∧ F.lt a b = (false, flagsNone) ∧
      F.lt b a = (true, flagsNone) ∧ F.le b a = (true, flagsNone) ∧ F.eq a b = (false, flagsNone)) ∧
    (∀ v : Rat, va.isRat v → vb = .inf false → F.le a b = (true, flagsNone) ∧ F.lt a b = (true, flagsNone) ∧
      F.lt b a = (false, flagsNone) ∧ F.le b a = (false, flagsNone) ∧ F.eq a b = (false, flagsNone)) ∧
    ∀ n n' : Bool, va = .inf n → vb = .inf n' → F.le a b = (n || !n', flagsNone) ∧ F.lt a b = (n && !n', flagsNone) ∧
      F.eq a b = (n == n', flagsNone)

/-- toInt gives hi with NV for a NaN and +infinity, lo with NV for -infinity; for a number it rounds by the mode,
saturates with NV outside [lo, hi], else gives the integer with NX exactly when it differs; never NV and NX together.
The eight FCVT to W, WU, L, LU use the ranges of the table and write their result sign-extended (L and LU with XLEN =
64). Under RMM -0.5 rounds to -1 (R274), so its unsigned conversion is 0 with NV: the definition of R301 is followed,
not its sentence on RMM (log entry 29). -/
def Obligations.FloatToIntegerSaturates : Prop :=
  (∀ (F : Fmt) (m : RMode) (a : BitVec F.width) (lo hi : Int),
    (∀ sig, F.value a = .nan sig → F.toInt m a lo hi = (hi, flagNV)) ∧
    (F.value a = .inf false → F.toInt m a lo hi = (hi, flagNV)) ∧ (F.value a = .inf true → F.toInt m a lo hi = (lo,
      flagNV)) ∧
    (∀ n, F.value a = .zero n → lo ≤ 0 → 0 ≤ hi → F.toInt m a lo hi = (0, flagsNone)) ∧
    (∀ v : Rat, F.value a = .fin v → ∃ n : Int, m.chooses v n ∧ (n < lo → F.toInt m a lo hi = (lo, flagNV)) ∧
      (lo ≤ n → hi < n → F.toInt m a lo hi = (hi, flagNV)) ∧
      (lo ≤ n → n ≤ hi → F.toInt m a lo hi = (n, if (n : Rat) = v then flagsNone else flagNX))) ∧
    ¬((F.toInt m a lo hi).2 &&& flagNV ≠ 0 ∧ (F.toInt m a lo hi).2 &&& flagNX ≠ 0)) ∧
  ∀ (s : State) (rd : XReg) (rs1 : FReg) (rm : Rm) (m : RMode), s.roundingMode rm = some m →
    let a := unbox32 (s.rF rs1)
    let d := s.rF rs1
    let w32 (i : Instr) (r : Int × FFlags) := WritesX s i rd (s.ofInt (low32 r.1)) r.2
    let w64 (i : Instr) (r : Int × FFlags) := WritesX s i rd (s.ofInt r.1) r.2
    w32 (.fcvtWS rd rs1 rm) (Fmt.f32.toInt m a (-2 ^ 31) (2 ^ 31 - 1)) ∧
    w32 (.fcvtWuS rd rs1 rm) (Fmt.f32.toInt m a 0 (2 ^ 32 - 1)) ∧
    w32 (.fcvtWD rd rs1 rm) (Fmt.f64.toInt m d (-2 ^ 31) (2 ^ 31 - 1)) ∧
    w32 (.fcvtWuD rd rs1 rm) (Fmt.f64.toInt m d 0 (2 ^ 32 - 1)) ∧
    (s.cfg.xlen = .rv64 →
      w64 (.fcvtLS rd rs1 rm) (Fmt.f32.toInt m a (-2 ^ 63) (2 ^ 63 - 1)) ∧
      w64 (.fcvtLuS rd rs1 rm) (Fmt.f32.toInt m a 0 (2 ^ 64 - 1)) ∧
      w64 (.fcvtLD rd rs1 rm) (Fmt.f64.toInt m d (-2 ^ 63) (2 ^ 63 - 1)) ∧
      w64 (.fcvtLuD rd rs1 rm) (Fmt.f64.toInt m d 0 (2 ^ 64 - 1)))

/-- FCVT.S and FCVT.D from W, WU, and with XLEN = 64 from L and LU, convert the signed or unsigned low word or the
whole register: +0 without a flag for 0, else the rounding of the integer by R274, whose flags are ORed into fflags;
nothing else changes. -/
def Obligations.IntegerToFloatResults : Prop :=
  ∀ (s : State) (rd : FReg) (rs1 : XReg) (rm : Rm) (m : RMode), s.roundingMode rm = some m →
    let sw := low32 (s.xInt rs1)
    let uw : Int := ((s.xNat rs1 % 2 ^ 32 : Nat) : Int)
    let conv (F : Fmt) (v : Int) : BitVec F.width × FFlags :=
      if v = 0 then (0, flagsNone) else F.round m (.rat (v : Rat))
    let ws (i : Instr) (v : Int) := WritesF s i rd (box32 (conv .f32 v).1) (conv .f32 v).2
    let wd (i : Instr) (v : Int) := WritesF s i rd (conv .f64 v).1 (conv .f64 v).2
    ws (.fcvtSW rd rs1 rm) sw ∧ ws (.fcvtSWu rd rs1 rm) uw ∧ wd (.fcvtDW rd rs1 rm) sw ∧ wd (.fcvtDWu rd rs1 rm) uw ∧
    (s.cfg.xlen = .rv64 →
      ws (.fcvtSL rd rs1 rm) (s.xInt rs1) ∧ ws (.fcvtSLu rd rs1 rm) (s.xNat rs1) ∧
      wd (.fcvtDL rd rs1 rm) (s.xInt rs1) ∧ wd (.fcvtDLu rd rs1 rm) (s.xNat rs1))

/-- FMV.X.S writes the low word of f[rs1] sign-extended without a boxing check, FMV.S.X the boxed low word of x[rs1],
FMV.X.D and FMV.D.X (XLEN = 64) all 64 bits, FCLASS the bit of the class, read off the sign, exponent and fraction
fields; no flag is set. -/
def Obligations.MovesAndClassify : Prop :=
  (∀ (s : State) (xd rs : XReg) (fd fs : FReg),
    WritesX s (.fmvXS xd fs) xd (s.ofInt (low32 (s.rF fs).toNat)) ∧
    WritesF s (.fmvSX fd rs) fd ((0xffffffff : BitVec 32) ++ BitVec.ofNat 32 (s.xNat rs) : BitVec 64) ∧
    WritesX s (.fclassS xd fs) xd (2 ^ Fmt.f32.classOf (unbox32 (s.rF fs))) ∧
    WritesX s (.fclassD xd fs) xd (2 ^ Fmt.f64.classOf (s.rF fs)) ∧
    (s.cfg.xlen = .rv64 → WritesX s (.fmvXD xd fs) xd (s.rF fs).toNat ∧
      WritesF s (.fmvDX fd rs) fd (BitVec.ofNat 64 (s.xNat rs)))) ∧
  ∀ (F : Fmt) (a : BitVec F.width),
    let ex := a.toNat / 2 ^ F.fracBits % 2 ^ F.expBits
    let fr := a.toNat % 2 ^ F.fracBits
    let pick (neg pos : Nat) := if a.msb then neg else pos
    F.classOf a =
      if ex = 2 ^ F.expBits - 1 then if fr = 0 then pick 0 7 else if fr < 2 ^ (F.fracBits - 1) then 8 else 9
      else if ex = 0 then if fr = 0 then pick 3 4 else pick 2 5
      else pick 1 6

/-- For an exact result that is the nonzero real r (a rational, or the root of a rational) there are e = floor(log2
|r|) and the integer n that the mode chooses for r over the quantum 2^(e-p+1); with u = n * 2^(e-p+1): |u| >=
2^(emax+1) overflows as R274 (1) says; else e >= emin gives exactly u, NX when it differs; else the multiple of
2^(emin-p+1) the mode chooses, sign kept, NX when it differs and UF when also |u| < 2^emin. -/
def Obligations.RoundingFollowsR274 : Prop :=
  ∀ (F : Fmt) (m : RMode) (x : Exact) (r : Real), x.isReal r →
    ∃ e n : Int, (2 : Real) ^ e ≤ |r| ∧ |r| < (2 : Real) ^ (e + 1) ∧
      let q : Real := (2 : Real) ^ (e - F.prec + 1)
      let u : Real := n * q
      let q' : Real := (2 : Real) ^ (F.emin - F.prec + 1)
      let res := F.round m x
      m.chooses (r / q) n ∧
      ((2 : Real) ^ (F.emax + 1) ≤ |u| → res.2 = flagOF ||| flagNX ∧
        res.1 = match m with
          | .rne => F.inf (decide (r < 0))
          | .rmm => F.inf (decide (r < 0))
          | .rtz => F.maxFinite (decide (r < 0))
          | .rdn => if r < 0 then F.inf true else F.maxFinite false
          | .rup => if r < 0 then F.maxFinite true else F.inf false) ∧
      (|u| < (2 : Real) ^ (F.emax + 1) → F.emin ≤ e →
        (∃ v : Rat, F.value res.1 = .fin v ∧ (v : Real) = u) ∧ (u = r → res.2 = flagsNone) ∧ (u ≠ r →
          res.2 = flagNX)) ∧
      (e < F.emin → ∃ k : Int, m.chooses (r / q') k ∧ res.1.msb = decide (r < 0) ∧
        (∃ v : Rat, (F.value res.1).isRat v ∧ (v : Real) = k * q') ∧ (k * q' = r → res.2 = flagsNone) ∧
        (k * q' ≠ r → |u| < (2 : Real) ^ F.emin → res.2 = flagUF ||| flagNX) ∧
        (k * q' ≠ r → (2 : Real) ^ F.emin ≤ |u| → res.2 = flagNX))

/-- Under every mode, the finite nonzero value of a pattern rounds to that very pattern without a flag; so distinct
patterns have distinct values, multiplication by 1 returns the operand, and the conversion of a 32-bit integer to
double precision is exact and converts back. -/
def Obligations.RepresentableValuesRoundToThemselves : Prop :=
  (∀ (F : Fmt) (m : RMode) (b : BitVec F.width) (v : Rat), F.value b = .fin v → F.round m (.rat v) = (b, flagsNone)) ∧
  (∀ (F : Fmt) (m : RMode) (b : BitVec F.width), (F.value b).isNaN = false →
    F.mul m b (F.signed false ((2 ^ (F.expBits - 1) - 1) * 2 ^ F.fracBits)) = (b, flagsNone)) ∧
  ∀ (m m' : RMode) (v : Int), -2 ^ 31 ≤ v → v < 2 ^ 32 →
    (Fmt.f64.ofInt m v).2 = flagsNone ∧ Fmt.f64.toInt m' (Fmt.f64.ofInt m v).1 (-2 ^ 63) (2 ^ 63 - 1) = (v, flagsNone)

/-- A NaN operand gives the canonical NaN, with NV exactly when an operand is signalling (in the fused forms also for
infinity times zero); infinity minus infinity, infinity times zero, zero by zero, infinity by infinity and the root of
a negative number give it with NV; an unboxed single reads as the quiet canonical NaN. -/
def Obligations.NaNOperandsGiveTheCanonicalNaN : Prop :=
  (∀ (F : Fmt) (m : RMode) (a b c : BitVec F.width) (np nc : Bool),
    let va := F.value a
    let vb := F.value b
    let vc := F.value c
    let invalid := (F.canonicalNaN, flagNV)
    (va.isNaN = true ∨ vb.isNaN = true →
      let r := (F.canonicalNaN, if va.isSNaN || vb.isSNaN then flagNV else flagsNone)
      F.add m a b = r ∧ F.sub m a b = r ∧ F.mul m a b = r ∧ F.div m a b = r) ∧
    (∀ sig, va = .nan sig → F.sqrt m a = (F.canonicalNaN, if sig then flagNV else flagsNone)) ∧
    (∀ n n', va = .inf n ∧ vb = .zero n' ∨ va = .zero n ∧ vb = .inf n' →
      F.mul m a b = invalid ∧ F.fma m a b c np nc = invalid) ∧
    ((va.isNaN = true ∨ vb.isNaN = true) ∨ vc.isNaN = true ∧ va.mul vb ≠ none →
      F.fma m a b c np nc = (F.canonicalNaN, if va.isSNaN || vb.isSNaN || vc.isSNaN then flagNV else flagsNone)) ∧
    (∀ n, va = .inf n → vb = .inf (!n) → F.add m a b = invalid) ∧ (∀ n, va = .inf n → vb = .inf n →
      F.sub m a b = invalid) ∧
    (∀ n n', va = .zero n ∧ vb = .zero n' ∨ va = .inf n ∧ vb = .inf n' → F.div m a b = invalid) ∧
    (∀ v : Rat, va = .fin v → v < 0 → F.sqrt m a = invalid) ∧ (va = .inf true → F.sqrt m a = invalid)) ∧
  (∀ d : DWord, d.toNat / 2 ^ 32 ≠ 2 ^ 32 - 1 → unbox32 d = 0x7fc00000) ∧ (∀ v : BitVec 32, unbox32 (box32 v) = v) ∧
  Fmt.f32.value 0x7fc00000 = .nan false ∧ Fmt.f64.value 0x7ff8000000000000 = .nan false

/-- Sums, differences, products, quotients, fused sums and roots with infinite or zero operands or an exact zero sum:
an infinity with its sign, a zero with the sign of the product or quotient, +0 (-0 under RDN) for an exact zero sum
but two zeros of a sign that zero, the number for a zero plus it; a fused sum of opposite infinities is invalid. A
finite nonzero number by zero is infinity with DZ, and no other division sets DZ. -/
def Obligations.SpecialOperandsOfTheArithmetic : Prop :=
  ∀ (F : Fmt) (m : RMode) (a b c : BitVec F.width) (np nc : Bool),
    let va := F.value a
    let vb := F.value b
    let vc := F.value c
    let exactZero := (F.zero (decide (m = .rdn)), flagsNone)
    let sg := a.msb != b.msb
    let sp := sg != np
    (∀ n, va = .inf n → vb = .inf n ∨ vb.isNumber = true → F.add m a b = (F.inf n, flagsNone) ∧
      F.add m b a = (F.inf n, flagsNone)) ∧
    (∀ n, va = .inf n → vb = .inf (!n) ∨ vb.isNumber = true → F.sub m a b = (F.inf n, flagsNone)) ∧
    (∀ n, va.isNumber = true → vb = .inf n → F.sub m a b = (F.inf (!n), flagsNone)) ∧
    (∀ v : Rat, va.isRat v → vb.isRat (-v) → (∀ n, va = .zero n → vb ≠ .zero n) → F.add m a b = exactZero) ∧
    (∀ v : Rat, va.isRat v → vb.isRat v → (∀ n, va = .zero n → vb ≠ .zero (!n)) → F.sub m a b = exactZero) ∧
    (∀ n, va = .zero n → vb = .zero n → F.add m a b = (a, flagsNone)) ∧
    (∀ n, va = .zero n → vb = .zero (!n) → F.sub m a b = (a, flagsNone)) ∧
    (∀ (n : Bool) (w : Rat), va = .zero n → vb = .fin w → F.add m a b = (b, flagsNone) ∧ F.add m b a = (b, flagsNone) ∧
      F.sub m b a = (b, flagsNone)) ∧
    (va.isInf = true ∧ vb.isNonzero = true ∨ va.isNonzero = true ∧ vb.isInf = true → F.mul m a b = (F.inf sg,
      flagsNone)) ∧
    (∀ n, va = .zero n ∧ vb.isNumber = true ∨ va.isNumber = true ∧ vb = .zero n → F.mul m a b = (F.zero sg,
      flagsNone)) ∧
    (va.isInf = true → vb.isNumber = true → F.div m a b = (F.inf sg, flagsNone)) ∧
    (∀ n, va = .zero n ∧ vb.isNonzero = true ∨ va.isNumber = true ∧ vb = .inf n → F.div m a b = (F.zero sg,
      flagsNone)) ∧
    (∀ (v : Rat) (n : Bool), va = .fin v → vb = .zero n → F.div m a b = (F.inf sg, flagDZ)) ∧
    ((F.div m a b).2 &&& flagDZ ≠ 0 → ∃ (v : Rat) (n : Bool), va = .fin v ∧ vb = .zero n) ∧
    (∀ n, va = .zero n → F.sqrt m a = (a, flagsNone)) ∧ (va = .inf false → F.sqrt m a = (a, flagsNone)) ∧
    (va.isInf = true ∧ vb.isNonzero = true ∨ va.isNonzero = true ∧ vb.isInf = true →
      (vc.isNumber = true ∨ vc = .inf (sp != nc) → F.fma m a b c np nc = (F.inf sp, flagsNone)) ∧
      (vc = .inf (sp == nc) → F.fma m a b c np nc = (F.canonicalNaN, flagNV))) ∧
    (∀ n, va.isNumber = true → vb.isNumber = true → vc = .inf n → F.fma m a b c np nc = (F.inf (n != nc), flagsNone)) ∧
    ∀ v w z : Rat, va.isRat v → vb.isRat w → vc.isRat z →
      (if np then -(v * w) else v * w) + (if nc then -z else z) = 0 →
      F.fma m a b c np nc = if z = 0 ∧ sp = (c.msb != nc) then (F.zero sp, flagsNone) else exactZero

/-- Every instruction changes fcsr only by ORing in flags of the set R272 gives it, OF and UF only together with NX,
and never both NV and NX for a conversion to an integer; so over any run flags are never cleared, frm is constant, and
bits 31:8 stay as they are. -/
def Obligations.FlagsPerInstruction : Prop :=
  (∀ (i : Instr) (s t : State), exec i s = .next t → ∃ fl : FFlags, t.fcsr = s.fcsr ||| fl.setWidth 32 ∧
    fl &&& ~~~i.flagMask = 0 ∧ (fl &&& (flagOF ||| flagUF) ≠ 0 → fl &&& flagNX ≠ 0) ∧
    (i.flagMask = flagNV ||| flagNX → fl &&& flagNV = 0 ∨ fl &&& flagNX = 0)) ∧
  ∀ s t : State, Reachable s t → t.frm = s.frm ∧ s.fflags &&& t.fflags = s.fflags ∧
    t.fcsr.extractLsb' 8 24 = s.fcsr.extractLsb' 8 24

/-- No instruction changes an integer register but its rd, a floating-point register but its rd, memory unless it is a
store, SC or AMO, the reservation or the SC draws unless it is LR or SC, or a parameter of the run; an instruction
with rd = x0 changes no integer register; x0 reads zero. -/
def Obligations.InstructionsWriteOnlyTheirDestinations : Prop :=
  (∀ s : State, s.xNat 0 = 0) ∧
  ∀ (i : Instr) (s t : State), exec i s = .next t →
    t.cfg = s.cfg ∧ t.fetchDraws = s.fetchDraws ∧
    (∀ r, i.xDest ≠ some r → t.xNat r = s.xNat r) ∧ (i.xDest = some 0 → ∀ r, t.xNat r = s.xNat r) ∧
    (∀ r, i.fDest ≠ some r → t.rF r = s.rF r) ∧ (i.writesMemory = false → t.mem = s.mem) ∧
    (i.touchesReservation = false → t.reservation = s.reservation ∧ t.scDraws = s.scDraws) ∧
    (i.allowedInLoop = true → t.mem = s.mem ∧ t.reservation = s.reservation ∧ t.f = s.f ∧ t.fcsr = s.fcsr)

/-- In canonical memory, the n bytes written at a (n at most 8, also across the top of the space) read back as the
value, every other byte reads as before, the memory stays canonical, and two canonical memories that read alike
everywhere are the same list. -/
def Obligations.MemoryReadsBackWhatWasWritten : Prop :=
  (∀ (s : State) (a : BitVec s.cfg.xlen.bits) (n : Nat) (v : BitVec (8 * n)), n ≤ 8 → Memory.wf s.mem = true →
    (s.memWrite a n v).memRead a n = v ∧ Memory.wf (s.memWrite a n v).mem = true ∧
    ∀ b, b ∉ byteAddrs a n → memByte (s.memWrite a n v).mem b = memByte s.mem b) ∧
  ∀ m m' : Memory, Memory.wf m = true → Memory.wf m' = true → (∀ a, memByte m a = memByte m' a) → m = m'

/-- The reset state satisfies the invariant and is the launch of the model's reset parameters (log entries 2 to 5);
every admitted launch leaves the pc at RESET_PC, no reservation, the hart running, frm and fflags as given, and
satisfies the invariant. -/
def Obligations.ResetStateSatisfiesTheInvariant : Prop :=
  State.reset.Inv ∧ State.launch resetLaunch = .next State.reset ∧
  ∀ (l : Launch) (s : State), State.launch l = .next s →
    s.Inv ∧ s.pc = l.cfg.resetPc ∧ s.reservation = none ∧ s.status = .running ∧ s.frm = l.frmInit ∧
    s.fflags = l.fflagsInit ∧ s.f = l.fInit ∧ s.unfenced = []

/-- From every state that satisfies it, a step that answers a next state answers one with canonical memory inside
MEM_MAP, the pc a multiple of 4, pc and registers of XLEN bits, the reserved bits of fcsr zero, the fetch candidates
in order and holding the current byte, a well-formed reservation, and a trap recorded at its own pc. -/
def Obligations.StepKeepsTheInvariant : Prop :=
  ∀ s t : State, s.Inv → step s = .next t → t.Inv

/-- For rd other than x0, li expands to LUI with hi20 and ADDI (XLEN = 32) or ADDIW (XLEN = 64) with lo12; executed
one after the other they leave the sign-extended constant in rd, whatever its bit 11, and the pc 8 further on. That
the two-instruction form stands for every 32-bit constant, also one of 12 bits, for which R120 has a single ADDI, is
the model's split of li (log entry 23). -/
def Obligations.LoadImmediateSequence : Prop :=
  ∀ (s : State) (rd : XReg) (imm : BitVec 32), rd ≠ 0 →
    let second : Instr := match s.cfg.xlen with
      | .rv32 => .addi rd rd (lo12 imm)
      | .rv64 => .addiw rd rd (lo12 imm)
    Pseudo.expand s.cfg.xlen (.li rd imm) = [.lui rd (hi20 imm), second] ∧
    ∃ t u, exec (.lui rd (hi20 imm)) s = .next t ∧ exec second t = .next u ∧ u.xNat rd = s.ofInt imm.toInt ∧
      u.pc.toNat = (s.pc.toNat + 8) % s.span

/-- In an infinite run that stays in a constrained loop and executes its SC again and again, either some execution of
the SC takes a draw that does not fail, stores x[rs2] and writes 0 to rd, or the run is not fair as R228 demands of
constrained loops. The form of the loop and of the fairness is the model's (log entries 11, 19); nothing is said of
other LR/SC sequences. -/
def Obligations.ConstrainedLoopStoresUnlessTheRunIsUnfair : Prop :=
  ∀ (r : Nat → State) (l : LoopPlace) (n : Nat), (r 0).cfg.granuleOk = true → Memory.wf (r 0).mem = true →
    RunsConstrainedLoop r l n → (∀ m, ∃ k, m ≤ k ∧ l.offset (r k) = l.sc) →
    (∃ (k : Nat) (rd rs2 rs1 : XReg) (aq rl : Bool),
      ((r k).decoded = some (.scW rd rs2 rs1 aq rl) ∧ n = 4 ∨ (r k).decoded = some (.scD rd rs2 rs1 aq rl) ∧ n = 8) ∧
      TakesDraw r k ∧ Config.scFails (r k).scDraws = false ∧ (r (k + 1)).xNat rd = 0 ∧
      (r (k + 1)).bytesNat (byteAddrs ((r k).rX rs1) n) = (r k).xNat rs2 % 256 ^ n) ∨ ¬ScFair r

/-- For operands that are numbers, add, sub, mul, div, sqrt and fma (the product negated when np, the addend when nc)
give the rounding by R274 of the exact sum, difference, product, quotient, square root or fused sum, wherever that
exact result is not zero (for a product or quotient: of nonzero numbers; for a root: of a positive number). -/
def Obligations.FiniteArithmeticRoundsTheExactResult : Prop :=
  ∀ (F : Fmt) (m : RMode) (a b c : BitVec F.width) (np nc : Bool),
    let va := F.value a
    let vb := F.value b
    let vc := F.value c
    (∀ v w : Rat, va.isRat v → vb.isRat w → v + w ≠ 0 → F.add m a b = F.round m (.rat (v + w))) ∧
    (∀ v w : Rat, va.isRat v → vb.isRat w → v - w ≠ 0 → F.sub m a b = F.round m (.rat (v - w))) ∧
    (∀ v w : Rat, va.isRat v → vb.isRat w → v ≠ 0 → w ≠ 0 →
      F.mul m a b = F.round m (.rat (v * w)) ∧ F.div m a b = F.round m (.rat (v / w))) ∧
    (∀ v : Rat, va = .fin v → 0 < v → F.sqrt m a = F.round m (.root v)) ∧
    ∀ v w z : Rat, va.isRat v → vb.isRat w → vc.isRat z →
      (if np then -(v * w) else v * w) + (if nc then -z else z) ≠ 0 →
      F.fma m a b c np nc = F.round m (.rat ((if np then -(v * w) else v * w) + (if nc then -z else z)))
end

