-- ==== Sys2Proof/Laws/Encoding.lean ====
section
/-!
SUPPORT. The encoder's formats, bit by bit: what each mask of the opcode table keeps of an encoded word, and that each
field of an encoded word is the operand it was built from.
-/
namespace Sys2Proof.Laws

theorem encR_getLsbD (funct7 : BitVec 7) (rs2 rs1 : BitVec 5) (funct3 : BitVec 3) (rd : BitVec 5) (opcode : BitVec 7) (i : Nat) :
    (encR funct7 rs2 rs1 funct3 rd opcode).getLsbD i =
      (funct7 ++ rs2 ++ rs1 ++ funct3 ++ rd ++ opcode).getLsbD i := rfl

theorem encI_getLsbD (imm : BitVec 12) (rs1 : BitVec 5) (funct3 : BitVec 3) (rd : BitVec 5) (opcode : BitVec 7) (i : Nat) :
    (encI imm rs1 funct3 rd opcode).getLsbD i =
      (imm ++ rs1 ++ funct3 ++ rd ++ opcode).getLsbD i := rfl

theorem encS_getLsbD (imm : BitVec 12) (rs2 rs1 : BitVec 5) (funct3 : BitVec 3) (opcode : BitVec 7) (i : Nat) :
    (encS imm rs2 rs1 funct3 opcode).getLsbD i =
      (imm.extractLsb' 5 7 ++ rs2 ++ rs1 ++ funct3 ++ imm.extractLsb' 0 5 ++ opcode).getLsbD i := rfl

theorem encB_getLsbD (off : BitVec 13) (rs2 rs1 : BitVec 5) (funct3 : BitVec 3) (opcode : BitVec 7) (i : Nat) :
    (encB off rs2 rs1 funct3 opcode).getLsbD i =
      (off.extractLsb' 12 1 ++ off.extractLsb' 5 6 ++ rs2 ++ rs1 ++ funct3 ++ off.extractLsb' 1 4 ++ off.extractLsb' 11 1 ++
        opcode).getLsbD i := rfl

theorem encU_getLsbD (imm : BitVec 20) (rd : BitVec 5) (opcode : BitVec 7) (i : Nat) :
    (encU imm rd opcode).getLsbD i =
      (imm ++ rd ++ opcode).getLsbD i := rfl

theorem encJ_getLsbD (off : BitVec 21) (rd : BitVec 5) (opcode : BitVec 7) (i : Nat) :
    (encJ off rd opcode).getLsbD i =
      (off.extractLsb' 20 1 ++ off.extractLsb' 1 10 ++ off.extractLsb' 11 1 ++ off.extractLsb' 12 8 ++ rd ++ opcode).getLsbD i := rfl

theorem encShift5_getLsbD (funct7 : BitVec 7) (shamt rs1 : BitVec 5) (funct3 : BitVec 3) (rd : BitVec 5) (opcode : BitVec 7) (i : Nat) :
    (encShift5 funct7 shamt rs1 funct3 rd opcode).getLsbD i =
      (funct7 ++ shamt ++ rs1 ++ funct3 ++ rd ++ opcode).getLsbD i := rfl

theorem encShift6_getLsbD (funct6 shamt : BitVec 6) (rs1 : BitVec 5) (funct3 : BitVec 3) (rd : BitVec 5) (opcode : BitVec 7) (i : Nat) :
    (encShift6 funct6 shamt rs1 funct3 rd opcode).getLsbD i =
      (funct6 ++ shamt ++ rs1 ++ funct3 ++ rd ++ opcode).getLsbD i := rfl

theorem encR4_getLsbD (rs3 : BitVec 5) (fmt : BitVec 2) (rs2 rs1 : BitVec 5) (rm : Rm) (rd : BitVec 5) (opcode : BitVec 7) (i : Nat) :
    (encR4 rs3 fmt rs2 rs1 rm rd opcode).getLsbD i =
      (rs3 ++ fmt ++ rs2 ++ rs1 ++ rm ++ rd ++ opcode).getLsbD i := rfl

theorem encAmo_getLsbD (funct5 : BitVec 5) (aq rl : Bool) (rs2 rs1 : BitVec 5) (funct3 : BitVec 3) (rd : BitVec 5) (i : Nat) :
    (encAmo funct5 aq rl rs2 rs1 funct3 rd).getLsbD i =
      (funct5 ++ BitVec.ofBool aq ++ BitVec.ofBool rl ++ rs2 ++ rs1 ++ funct3 ++ rd ++ (0b0101111 : BitVec 7)).getLsbD i := rfl

theorem encFence_getLsbD (pred succ : BitVec 4) (funct3 : BitVec 3) (i : Nat) :
    (encFence pred succ funct3).getLsbD i =
      ((0 : BitVec 4) ++ pred ++ succ ++ (0 : BitVec 5) ++ funct3 ++ (0 : BitVec 5) ++ (0b0001111 : BitVec 7)).getLsbD i := rfl

theorem immS_getLsbD (w : Word) (i : Nat) :
    (immS w).getLsbD i = (w.extractLsb' 25 7 ++ w.extractLsb' 7 5).getLsbD i := rfl

theorem immB_getLsbD (w : Word) (i : Nat) :
    (immB w).getLsbD i = (w.extractLsb' 31 1 ++ w.extractLsb' 7 1 ++ w.extractLsb' 25 6 ++ w.extractLsb' 8 4 ++
      (0 : BitVec 1)).getLsbD i := rfl

theorem immJ_getLsbD (w : Word) (i : Nat) :
    (immJ w).getLsbD i = (w.extractLsb' 31 1 ++ w.extractLsb' 12 8 ++ w.extractLsb' 20 1 ++ w.extractLsb' 21 10 ++
      (0 : BitVec 1)).getLsbD i := rfl

theorem encR_maskFunct (funct7 : BitVec 7) (rs2 rs1 : BitVec 5) (funct3 : BitVec 3) (rd : BitVec 5) (opcode : BitVec 7) :
    encR funct7 rs2 rs1 funct3 rd opcode &&& 0xfe00707f#32 = encR funct7 0 0 funct3 0 opcode := by
  apply BitVec.eq_of_getLsbD_eq
  intro i hi
  rw [BitVec.getLsbD_and, encR_getLsbD, encR_getLsbD]
  simp only [BitVec.getLsbD_append]
  interval_cases i <;> simp

theorem encR_maskRm (funct7 : BitVec 7) (rs2 rs1 : BitVec 5) (funct3 : BitVec 3) (rd : BitVec 5) (opcode : BitVec 7) :
    encR funct7 rs2 rs1 funct3 rd opcode &&& 0xfe00007f#32 = encR funct7 0 0 0 0 opcode := by
  apply BitVec.eq_of_getLsbD_eq
  intro i hi
  rw [BitVec.getLsbD_and, encR_getLsbD, encR_getLsbD]
  simp only [BitVec.getLsbD_append]
  interval_cases i <;> simp

theorem encR_maskSel (funct7 : BitVec 7) (rs2 rs1 : BitVec 5) (funct3 : BitVec 3) (rd : BitVec 5) (opcode : BitVec 7) :
    encR funct7 rs2 rs1 funct3 rd opcode &&& 0xfff0707f#32 = encR funct7 rs2 0 funct3 0 opcode := by
  apply BitVec.eq_of_getLsbD_eq
  intro i hi
  rw [BitVec.getLsbD_and, encR_getLsbD, encR_getLsbD]
  simp only [BitVec.getLsbD_append]
  interval_cases i <;> simp

theorem encR_maskSelRm (funct7 : BitVec 7) (rs2 rs1 : BitVec 5) (funct3 : BitVec 3) (rd : BitVec 5) (opcode : BitVec 7) :
    encR funct7 rs2 rs1 funct3 rd opcode &&& 0xfff0007f#32 = encR funct7 rs2 0 0 0 opcode := by
  apply BitVec.eq_of_getLsbD_eq
  intro i hi
  rw [BitVec.getLsbD_and, encR_getLsbD, encR_getLsbD]
  simp only [BitVec.getLsbD_append]
  interval_cases i <;> simp

theorem encI_mask (imm : BitVec 12) (rs1 : BitVec 5) (funct3 : BitVec 3) (rd : BitVec 5) (opcode : BitVec 7) :
    encI imm rs1 funct3 rd opcode &&& 0x0000707f#32 = encI 0 0 funct3 0 opcode := by
  apply BitVec.eq_of_getLsbD_eq
  intro i hi
  rw [BitVec.getLsbD_and, encI_getLsbD, encI_getLsbD]
  simp only [BitVec.getLsbD_append]
  interval_cases i <;> simp

theorem encS_mask (imm : BitVec 12) (rs2 rs1 : BitVec 5) (funct3 : BitVec 3) (opcode : BitVec 7) :
    encS imm rs2 rs1 funct3 opcode &&& 0x0000707f#32 = encS 0 0 0 funct3 opcode := by
  apply BitVec.eq_of_getLsbD_eq
  intro i hi
  rw [BitVec.getLsbD_and, encS_getLsbD, encS_getLsbD]
  simp only [BitVec.getLsbD_append, BitVec.getLsbD_extractLsb']
  interval_cases i <;> simp

theorem encB_mask (off : BitVec 13) (rs2 rs1 : BitVec 5) (funct3 : BitVec 3) (opcode : BitVec 7) :
    encB off rs2 rs1 funct3 opcode &&& 0x0000707f#32 = encB 0 0 0 funct3 opcode := by
  apply BitVec.eq_of_getLsbD_eq
  intro i hi
  rw [BitVec.getLsbD_and, encB_getLsbD, encB_getLsbD]
  simp only [BitVec.getLsbD_append, BitVec.getLsbD_extractLsb']
  interval_cases i <;> simp

theorem encU_mask (imm : BitVec 20) (rd : BitVec 5) (opcode : BitVec 7) :
    encU imm rd opcode &&& 0x0000007f#32 = encU 0 0 opcode := by
  apply BitVec.eq_of_getLsbD_eq
  intro i hi
  rw [BitVec.getLsbD_and, encU_getLsbD, encU_getLsbD]
  simp only [BitVec.getLsbD_append]
  interval_cases i <;> simp

theorem encJ_mask (off : BitVec 21) (rd : BitVec 5) (opcode : BitVec 7) :
    encJ off rd opcode &&& 0x0000007f#32 = encJ 0 0 opcode := by
  apply BitVec.eq_of_getLsbD_eq
  intro i hi
  rw [BitVec.getLsbD_and, encJ_getLsbD, encJ_getLsbD]
  simp only [BitVec.getLsbD_append, BitVec.getLsbD_extractLsb']
  interval_cases i <;> simp

theorem encShift5_mask (funct7 : BitVec 7) (shamt rs1 : BitVec 5) (funct3 : BitVec 3) (rd : BitVec 5) (opcode : BitVec 7) :
    encShift5 funct7 shamt rs1 funct3 rd opcode &&& 0xfe00707f#32 = encShift5 funct7 0 0 funct3 0 opcode := by
  apply BitVec.eq_of_getLsbD_eq
  intro i hi
  rw [BitVec.getLsbD_and, encShift5_getLsbD, encShift5_getLsbD]
  simp only [BitVec.getLsbD_append]
  interval_cases i <;> simp

theorem encShift6_mask (funct6 shamt : BitVec 6) (rs1 : BitVec 5) (funct3 : BitVec 3) (rd : BitVec 5) (opcode : BitVec 7) :
    encShift6 funct6 shamt rs1 funct3 rd opcode &&& 0xfc00707f#32 = encShift6 funct6 0 0 funct3 0 opcode := by
  apply BitVec.eq_of_getLsbD_eq
  intro i hi
  rw [BitVec.getLsbD_and, encShift6_getLsbD, encShift6_getLsbD]
  simp only [BitVec.getLsbD_append]
  interval_cases i <;> simp

theorem encR4_mask (rs3 : BitVec 5) (fmt : BitVec 2) (rs2 rs1 : BitVec 5) (rm : Rm) (rd : BitVec 5) (opcode : BitVec 7) :
    encR4 rs3 fmt rs2 rs1 rm rd opcode &&& 0x0600007f#32 = encR4 0 fmt 0 0 0 0 opcode := by
  apply BitVec.eq_of_getLsbD_eq
  intro i hi
  rw [BitVec.getLsbD_and, encR4_getLsbD, encR4_getLsbD]
  simp only [BitVec.getLsbD_append]
  interval_cases i <;> simp

theorem encAmo_mask (funct5 : BitVec 5) (aq rl : Bool) (rs2 rs1 : BitVec 5) (funct3 : BitVec 3) (rd : BitVec 5) :
    encAmo funct5 aq rl rs2 rs1 funct3 rd &&& 0xf800707f#32 = encAmo funct5 false false 0 0 funct3 0 := by
  apply BitVec.eq_of_getLsbD_eq
  intro i hi
  rw [BitVec.getLsbD_and, encAmo_getLsbD, encAmo_getLsbD]
  simp only [BitVec.getLsbD_append]
  interval_cases i <;> simp

theorem encAmo_maskLr (funct5 : BitVec 5) (aq rl : Bool) (rs2 rs1 : BitVec 5) (funct3 : BitVec 3) (rd : BitVec 5) :
    encAmo funct5 aq rl rs2 rs1 funct3 rd &&& 0xf9f0707f#32 = encAmo funct5 false false rs2 0 funct3 0 := by
  apply BitVec.eq_of_getLsbD_eq
  intro i hi
  rw [BitVec.getLsbD_and, encAmo_getLsbD, encAmo_getLsbD]
  simp only [BitVec.getLsbD_append]
  interval_cases i <;> simp

theorem encFence_mask (pred succ : BitVec 4) (funct3 : BitVec 3) :
    encFence pred succ funct3 &&& 0xf00fffff#32 = encFence 0 0 funct3 := by
  apply BitVec.eq_of_getLsbD_eq
  intro i hi
  rw [BitVec.getLsbD_and, encFence_getLsbD, encFence_getLsbD]
  simp only [BitVec.getLsbD_append]
  interval_cases i <;> simp

theorem fieldRd_encR (funct7 : BitVec 7) (rs2 rs1 : BitVec 5) (funct3 : BitVec 3) (rd : BitVec 5) (opcode : BitVec 7) :
    fieldRd (encR funct7 rs2 rs1 funct3 rd opcode) = rd := by
  apply BitVec.eq_of_getLsbD_eq
  intro i hi
  rw [fieldRd, BitVec.getLsbD_extractLsb', encR_getLsbD]
  simp only [BitVec.getLsbD_append]
  interval_cases i <;> simp

theorem fieldRs1_encR (funct7 : BitVec 7) (rs2 rs1 : BitVec 5) (funct3 : BitVec 3) (rd : BitVec 5) (opcode : BitVec 7) :
    fieldRs1 (encR funct7 rs2 rs1 funct3 rd opcode) = rs1 := by
  apply BitVec.eq_of_getLsbD_eq
  intro i hi
  rw [fieldRs1, BitVec.getLsbD_extractLsb', encR_getLsbD]
  simp only [BitVec.getLsbD_append]
  interval_cases i <;> simp

theorem fieldRs2_encR (funct7 : BitVec 7) (rs2 rs1 : BitVec 5) (funct3 : BitVec 3) (rd : BitVec 5) (opcode : BitVec 7) :
    fieldRs2 (encR funct7 rs2 rs1 funct3 rd opcode) = rs2 := by
  apply BitVec.eq_of_getLsbD_eq
  intro i hi
  rw [fieldRs2, BitVec.getLsbD_extractLsb', encR_getLsbD]
  simp only [BitVec.getLsbD_append]
  interval_cases i <;> simp

theorem fieldRm_encR (funct7 : BitVec 7) (rs2 rs1 : BitVec 5) (funct3 : BitVec 3) (rd : BitVec 5) (opcode : BitVec 7) :
    fieldRm (encR funct7 rs2 rs1 funct3 rd opcode) = funct3 := by
  apply BitVec.eq_of_getLsbD_eq
  intro i hi
  rw [fieldRm, BitVec.getLsbD_extractLsb', encR_getLsbD]
  simp only [BitVec.getLsbD_append]
  interval_cases i <;> simp

theorem fieldRd_encI (imm : BitVec 12) (rs1 : BitVec 5) (funct3 : BitVec 3) (rd : BitVec 5) (opcode : BitVec 7) :
    fieldRd (encI imm rs1 funct3 rd opcode) = rd := by
  apply BitVec.eq_of_getLsbD_eq
  intro i hi
  rw [fieldRd, BitVec.getLsbD_extractLsb', encI_getLsbD]
  simp only [BitVec.getLsbD_append]
  interval_cases i <;> simp

theorem fieldRs1_encI (imm : BitVec 12) (rs1 : BitVec 5) (funct3 : BitVec 3) (rd : BitVec 5) (opcode : BitVec 7) :
    fieldRs1 (encI imm rs1 funct3 rd opcode) = rs1 := by
  apply BitVec.eq_of_getLsbD_eq
  intro i hi
  rw [fieldRs1, BitVec.getLsbD_extractLsb', encI_getLsbD]
  simp only [BitVec.getLsbD_append]
  interval_cases i <;> simp

theorem fieldRs1_encS (imm : BitVec 12) (rs2 rs1 : BitVec 5) (funct3 : BitVec 3) (opcode : BitVec 7) :
    fieldRs1 (encS imm rs2 rs1 funct3 opcode) = rs1 := by
  apply BitVec.eq_of_getLsbD_eq
  intro i hi
  rw [fieldRs1, BitVec.getLsbD_extractLsb', encS_getLsbD]
  simp only [BitVec.getLsbD_append]
  interval_cases i <;> simp

theorem fieldRs2_encS (imm : BitVec 12) (rs2 rs1 : BitVec 5) (funct3 : BitVec 3) (opcode : BitVec 7) :
    fieldRs2 (encS imm rs2 rs1 funct3 opcode) = rs2 := by
  apply BitVec.eq_of_getLsbD_eq
  intro i hi
  rw [fieldRs2, BitVec.getLsbD_extractLsb', encS_getLsbD]
  simp only [BitVec.getLsbD_append]
  interval_cases i <;> simp

theorem fieldRs1_encB (off : BitVec 13) (rs2 rs1 : BitVec 5) (funct3 : BitVec 3) (opcode : BitVec 7) :
    fieldRs1 (encB off rs2 rs1 funct3 opcode) = rs1 := by
  apply BitVec.eq_of_getLsbD_eq
  intro i hi
  rw [fieldRs1, BitVec.getLsbD_extractLsb', encB_getLsbD]
  simp only [BitVec.getLsbD_append]
  interval_cases i <;> simp

theorem fieldRs2_encB (off : BitVec 13) (rs2 rs1 : BitVec 5) (funct3 : BitVec 3) (opcode : BitVec 7) :
    fieldRs2 (encB off rs2 rs1 funct3 opcode) = rs2 := by
  apply BitVec.eq_of_getLsbD_eq
  intro i hi
  rw [fieldRs2, BitVec.getLsbD_extractLsb', encB_getLsbD]
  simp only [BitVec.getLsbD_append]
  interval_cases i <;> simp

theorem fieldRd_encU (imm : BitVec 20) (rd : BitVec 5) (opcode : BitVec 7) :
    fieldRd (encU imm rd opcode) = rd := by
  apply BitVec.eq_of_getLsbD_eq
  intro i hi
  rw [fieldRd, BitVec.getLsbD_extractLsb', encU_getLsbD]
  simp only [BitVec.getLsbD_append]
  interval_cases i <;> simp

theorem fieldRd_encJ (off : BitVec 21) (rd : BitVec 5) (opcode : BitVec 7) :
    fieldRd (encJ off rd opcode) = rd := by
  apply BitVec.eq_of_getLsbD_eq
  intro i hi
  rw [fieldRd, BitVec.getLsbD_extractLsb', encJ_getLsbD]
  simp only [BitVec.getLsbD_append]
  interval_cases i <;> simp

theorem fieldRd_encShift5 (funct7 : BitVec 7) (shamt rs1 : BitVec 5) (funct3 : BitVec 3) (rd : BitVec 5) (opcode : BitVec 7) :
    fieldRd (encShift5 funct7 shamt rs1 funct3 rd opcode) = rd := by
  apply BitVec.eq_of_getLsbD_eq
  intro i hi
  rw [fieldRd, BitVec.getLsbD_extractLsb', encShift5_getLsbD]
  simp only [BitVec.getLsbD_append]
  interval_cases i <;> simp

theorem fieldRs1_encShift5 (funct7 : BitVec 7) (shamt rs1 : BitVec 5) (funct3 : BitVec 3) (rd : BitVec 5) (opcode : BitVec 7) :
    fieldRs1 (encShift5 funct7 shamt rs1 funct3 rd opcode) = rs1 := by
  apply BitVec.eq_of_getLsbD_eq
  intro i hi
  rw [fieldRs1, BitVec.getLsbD_extractLsb', encShift5_getLsbD]
  simp only [BitVec.getLsbD_append]
  interval_cases i <;> simp

theorem fieldRd_encShift6 (funct6 shamt : BitVec 6) (rs1 : BitVec 5) (funct3 : BitVec 3) (rd : BitVec 5) (opcode : BitVec 7) :
    fieldRd (encShift6 funct6 shamt rs1 funct3 rd opcode) = rd := by
  apply BitVec.eq_of_getLsbD_eq
  intro i hi
  rw [fieldRd, BitVec.getLsbD_extractLsb', encShift6_getLsbD]
  simp only [BitVec.getLsbD_append]
  interval_cases i <;> simp

theorem fieldRs1_encShift6 (funct6 shamt : BitVec 6) (rs1 : BitVec 5) (funct3 : BitVec 3) (rd : BitVec 5) (opcode : BitVec 7) :
    fieldRs1 (encShift6 funct6 shamt rs1 funct3 rd opcode) = rs1 := by
  apply BitVec.eq_of_getLsbD_eq
  intro i hi
  rw [fieldRs1, BitVec.getLsbD_extractLsb', encShift6_getLsbD]
  simp only [BitVec.getLsbD_append]
  interval_cases i <;> simp

theorem fieldRd_encR4 (rs3 : BitVec 5) (fmt : BitVec 2) (rs2 rs1 : BitVec 5) (rm : Rm) (rd : BitVec 5) (opcode : BitVec 7) :
    fieldRd (encR4 rs3 fmt rs2 rs1 rm rd opcode) = rd := by
  apply BitVec.eq_of_getLsbD_eq
  intro i hi
  rw [fieldRd, BitVec.getLsbD_extractLsb', encR4_getLsbD]
  simp only [BitVec.getLsbD_append]
  interval_cases i <;> simp

theorem fieldRs1_encR4 (rs3 : BitVec 5) (fmt : BitVec 2) (rs2 rs1 : BitVec 5) (rm : Rm) (rd : BitVec 5) (opcode : BitVec 7) :
    fieldRs1 (encR4 rs3 fmt rs2 rs1 rm rd opcode) = rs1 := by
  apply BitVec.eq_of_getLsbD_eq
  intro i hi
  rw [fieldRs1, BitVec.getLsbD_extractLsb', encR4_getLsbD]
  simp only [BitVec.getLsbD_append]
  interval_cases i <;> simp

theorem fieldRs2_encR4 (rs3 : BitVec 5) (fmt : BitVec 2) (rs2 rs1 : BitVec 5) (rm : Rm) (rd : BitVec 5) (opcode : BitVec 7) :
    fieldRs2 (encR4 rs3 fmt rs2 rs1 rm rd opcode) = rs2 := by
  apply BitVec.eq_of_getLsbD_eq
  intro i hi
  rw [fieldRs2, BitVec.getLsbD_extractLsb', encR4_getLsbD]
  simp only [BitVec.getLsbD_append]
  interval_cases i <;> simp

theorem fieldRs3_encR4 (rs3 : BitVec 5) (fmt : BitVec 2) (rs2 rs1 : BitVec 5) (rm : Rm) (rd : BitVec 5) (opcode : BitVec 7) :
    fieldRs3 (encR4 rs3 fmt rs2 rs1 rm rd opcode) = rs3 := by
  apply BitVec.eq_of_getLsbD_eq
  intro i hi
  rw [fieldRs3, BitVec.getLsbD_extractLsb', encR4_getLsbD]
  simp only [BitVec.getLsbD_append]
  interval_cases i <;> simp

theorem fieldRm_encR4 (rs3 : BitVec 5) (fmt : BitVec 2) (rs2 rs1 : BitVec 5) (rm : Rm) (rd : BitVec 5) (opcode : BitVec 7) :
    fieldRm (encR4 rs3 fmt rs2 rs1 rm rd opcode) = rm := by
  apply BitVec.eq_of_getLsbD_eq
  intro i hi
  rw [fieldRm, BitVec.getLsbD_extractLsb', encR4_getLsbD]
  simp only [BitVec.getLsbD_append]
  interval_cases i <;> simp

theorem fieldRd_encAmo (funct5 : BitVec 5) (aq rl : Bool) (rs2 rs1 : BitVec 5) (funct3 : BitVec 3) (rd : BitVec 5) :
    fieldRd (encAmo funct5 aq rl rs2 rs1 funct3 rd) = rd := by
  apply BitVec.eq_of_getLsbD_eq
  intro i hi
  rw [fieldRd, BitVec.getLsbD_extractLsb', encAmo_getLsbD]
  simp only [BitVec.getLsbD_append]
  interval_cases i <;> simp

theorem fieldRs1_encAmo (funct5 : BitVec 5) (aq rl : Bool) (rs2 rs1 : BitVec 5) (funct3 : BitVec 3) (rd : BitVec 5) :
    fieldRs1 (encAmo funct5 aq rl rs2 rs1 funct3 rd) = rs1 := by
  apply BitVec.eq_of_getLsbD_eq
  intro i hi
  rw [fieldRs1, BitVec.getLsbD_extractLsb', encAmo_getLsbD]
  simp only [BitVec.getLsbD_append]
  interval_cases i <;> simp

theorem fieldRs2_encAmo (funct5 : BitVec 5) (aq rl : Bool) (rs2 rs1 : BitVec 5) (funct3 : BitVec 3) (rd : BitVec 5) :
    fieldRs2 (encAmo funct5 aq rl rs2 rs1 funct3 rd) = rs2 := by
  apply BitVec.eq_of_getLsbD_eq
  intro i hi
  rw [fieldRs2, BitVec.getLsbD_extractLsb', encAmo_getLsbD]
  simp only [BitVec.getLsbD_append]
  interval_cases i <;> simp

theorem fieldPred_encFence (pred succ : BitVec 4) (funct3 : BitVec 3) :
    fieldPred (encFence pred succ funct3) = pred := by
  apply BitVec.eq_of_getLsbD_eq
  intro i hi
  rw [fieldPred, BitVec.getLsbD_extractLsb', encFence_getLsbD]
  simp only [BitVec.getLsbD_append]
  interval_cases i <;> simp

theorem fieldSucc_encFence (pred succ : BitVec 4) (funct3 : BitVec 3) :
    fieldSucc (encFence pred succ funct3) = succ := by
  apply BitVec.eq_of_getLsbD_eq
  intro i hi
  rw [fieldSucc, BitVec.getLsbD_extractLsb', encFence_getLsbD]
  simp only [BitVec.getLsbD_append]
  interval_cases i <;> simp

theorem immI_encI (imm : BitVec 12) (rs1 : BitVec 5) (funct3 : BitVec 3) (rd : BitVec 5) (opcode : BitVec 7) :
    immI (encI imm rs1 funct3 rd opcode) = imm := by
  apply BitVec.eq_of_getLsbD_eq
  intro i hi
  rw [immI, BitVec.getLsbD_extractLsb', encI_getLsbD]
  simp only [BitVec.getLsbD_append]
  interval_cases i <;> simp

theorem immU_encU (imm : BitVec 20) (rd : BitVec 5) (opcode : BitVec 7) :
    immU (encU imm rd opcode) = imm := by
  apply BitVec.eq_of_getLsbD_eq
  intro i hi
  rw [immU, BitVec.getLsbD_extractLsb', encU_getLsbD]
  simp only [BitVec.getLsbD_append]
  interval_cases i <;> simp

theorem shamt5_encShift5 (funct7 : BitVec 7) (shamt rs1 : BitVec 5) (funct3 : BitVec 3) (rd : BitVec 5) (opcode : BitVec 7) :
    shamt5 (encShift5 funct7 shamt rs1 funct3 rd opcode) = shamt := by
  apply BitVec.eq_of_getLsbD_eq
  intro i hi
  rw [shamt5, BitVec.getLsbD_extractLsb', encShift5_getLsbD]
  simp only [BitVec.getLsbD_append]
  interval_cases i <;> simp

theorem shamt6_encShift6 (funct6 shamt : BitVec 6) (rs1 : BitVec 5) (funct3 : BitVec 3) (rd : BitVec 5) (opcode : BitVec 7) :
    shamt6 (encShift6 funct6 shamt rs1 funct3 rd opcode) = shamt := by
  apply BitVec.eq_of_getLsbD_eq
  intro i hi
  rw [shamt6, BitVec.getLsbD_extractLsb', encShift6_getLsbD]
  simp only [BitVec.getLsbD_append]
  interval_cases i <;> simp

theorem fieldAq_encAmo (funct5 : BitVec 5) (aq rl : Bool) (rs2 rs1 : BitVec 5) (funct3 : BitVec 3) (rd : BitVec 5) :
    fieldAq (encAmo funct5 aq rl rs2 rs1 funct3 rd) = aq := by
  rw [fieldAq, encAmo_getLsbD]
  simp only [BitVec.getLsbD_append]
  simp

theorem fieldRl_encAmo (funct5 : BitVec 5) (aq rl : Bool) (rs2 rs1 : BitVec 5) (funct3 : BitVec 3) (rd : BitVec 5) :
    fieldRl (encAmo funct5 aq rl rs2 rs1 funct3 rd) = rl := by
  rw [fieldRl, encAmo_getLsbD]
  simp only [BitVec.getLsbD_append]
  simp

theorem immS_encS (imm : BitVec 12) (rs2 rs1 : BitVec 5) (funct3 : BitVec 3) (opcode : BitVec 7) :
    immS (encS imm rs2 rs1 funct3 opcode) = imm := by
  apply BitVec.eq_of_getLsbD_eq
  intro i hi
  rw [immS_getLsbD]
  simp only [BitVec.getLsbD_append, BitVec.getLsbD_extractLsb', encS_getLsbD]
  interval_cases i <;> simp

theorem immB_encB (off : BitVec 13) (rs2 rs1 : BitVec 5) (funct3 : BitVec 3) (opcode : BitVec 7) (h : off.getLsbD 0 = false) :
    immB (encB off rs2 rs1 funct3 opcode) = off := by
  apply BitVec.eq_of_getLsbD_eq
  intro i hi
  rw [immB_getLsbD]
  simp only [BitVec.getLsbD_append, BitVec.getLsbD_extractLsb', encB_getLsbD]
  rw [BitVec.getLsbD_eq_getElem (by decide)] at h
  interval_cases i <;> simp [h]

theorem immJ_encJ (off : BitVec 21) (rd : BitVec 5) (opcode : BitVec 7) (h : off.getLsbD 0 = false) :
    immJ (encJ off rd opcode) = off := by
  apply BitVec.eq_of_getLsbD_eq
  intro i hi
  rw [immJ_getLsbD]
  simp only [BitVec.getLsbD_append, BitVec.getLsbD_extractLsb', encJ_getLsbD]
  rw [BitVec.getLsbD_eq_getElem (by decide)] at h
  interval_cases i <;> simp [h]

end Sys2Proof.Laws
end

