-- ==== Sys2Proof/Laws/State.lean ====
section
/-! SUPPORT. One lemma per field per update of the state: what each update leaves as it was. -/
namespace Sys2Proof.Laws

open Sys2Proof.Machine

@[simp] theorem wX_cfg (s : State) (r : XReg) {n : Nat} (v : BitVec n) : (s.wX r v).cfg = s.cfg := rfl
@[simp] theorem wX_pc (s : State) (r : XReg) {n : Nat} (v : BitVec n) : (s.wX r v).pc = s.pc := rfl
@[simp] theorem wX_f (s : State) (r : XReg) {n : Nat} (v : BitVec n) : (s.wX r v).f = s.f := rfl
@[simp] theorem wX_fcsr (s : State) (r : XReg) {n : Nat} (v : BitVec n) : (s.wX r v).fcsr = s.fcsr := rfl
@[simp] theorem wX_reservation (s : State) (r : XReg) {n : Nat} (v : BitVec n) : (s.wX r v).reservation = s.reservation := rfl
@[simp] theorem wX_mem (s : State) (r : XReg) {n : Nat} (v : BitVec n) : (s.wX r v).mem = s.mem := rfl
@[simp] theorem wX_status (s : State) (r : XReg) {n : Nat} (v : BitVec n) : (s.wX r v).status = s.status := rfl
@[simp] theorem wX_unfenced (s : State) (r : XReg) {n : Nat} (v : BitVec n) : (s.wX r v).unfenced = s.unfenced := rfl
@[simp] theorem wX_scDraws (s : State) (r : XReg) {n : Nat} (v : BitVec n) : (s.wX r v).scDraws = s.scDraws := rfl
@[simp] theorem wX_fetchDraws (s : State) (r : XReg) {n : Nat} (v : BitVec n) : (s.wX r v).fetchDraws = s.fetchDraws := rfl

@[simp] theorem wF_cfg (s : State) (r : FReg) (v : DWord) : (s.wF r v).cfg = s.cfg := rfl
@[simp] theorem wF_x (s : State) (r : FReg) (v : DWord) : (s.wF r v).x = s.x := rfl
@[simp] theorem wF_pc (s : State) (r : FReg) (v : DWord) : (s.wF r v).pc = s.pc := rfl
@[simp] theorem wF_fcsr (s : State) (r : FReg) (v : DWord) : (s.wF r v).fcsr = s.fcsr := rfl
@[simp] theorem wF_reservation (s : State) (r : FReg) (v : DWord) : (s.wF r v).reservation = s.reservation := rfl
@[simp] theorem wF_mem (s : State) (r : FReg) (v : DWord) : (s.wF r v).mem = s.mem := rfl
@[simp] theorem wF_status (s : State) (r : FReg) (v : DWord) : (s.wF r v).status = s.status := rfl
@[simp] theorem wF_unfenced (s : State) (r : FReg) (v : DWord) : (s.wF r v).unfenced = s.unfenced := rfl
@[simp] theorem wF_scDraws (s : State) (r : FReg) (v : DWord) : (s.wF r v).scDraws = s.scDraws := rfl
@[simp] theorem wF_fetchDraws (s : State) (r : FReg) (v : DWord) : (s.wF r v).fetchDraws = s.fetchDraws := rfl

@[simp] theorem setPc_cfg (s : State) {n : Nat} (t : BitVec n) : (s.setPc t).cfg = s.cfg := rfl
@[simp] theorem setPc_x (s : State) {n : Nat} (t : BitVec n) : (s.setPc t).x = s.x := rfl
@[simp] theorem setPc_f (s : State) {n : Nat} (t : BitVec n) : (s.setPc t).f = s.f := rfl
@[simp] theorem setPc_fcsr (s : State) {n : Nat} (t : BitVec n) : (s.setPc t).fcsr = s.fcsr := rfl
@[simp] theorem setPc_reservation (s : State) {n : Nat} (t : BitVec n) : (s.setPc t).reservation = s.reservation := rfl
@[simp] theorem setPc_mem (s : State) {n : Nat} (t : BitVec n) : (s.setPc t).mem = s.mem := rfl
@[simp] theorem setPc_status (s : State) {n : Nat} (t : BitVec n) : (s.setPc t).status = s.status := rfl
@[simp] theorem setPc_unfenced (s : State) {n : Nat} (t : BitVec n) : (s.setPc t).unfenced = s.unfenced := rfl
@[simp] theorem setPc_scDraws (s : State) {n : Nat} (t : BitVec n) : (s.setPc t).scDraws = s.scDraws := rfl
@[simp] theorem setPc_fetchDraws (s : State) {n : Nat} (t : BitVec n) : (s.setPc t).fetchDraws = s.fetchDraws := rfl

@[simp] theorem advance_cfg (s : State) : (s.advance).cfg = s.cfg := rfl
@[simp] theorem advance_x (s : State) : (s.advance).x = s.x := rfl
@[simp] theorem advance_f (s : State) : (s.advance).f = s.f := rfl
@[simp] theorem advance_fcsr (s : State) : (s.advance).fcsr = s.fcsr := rfl
@[simp] theorem advance_reservation (s : State) : (s.advance).reservation = s.reservation := rfl
@[simp] theorem advance_mem (s : State) : (s.advance).mem = s.mem := rfl
@[simp] theorem advance_status (s : State) : (s.advance).status = s.status := rfl
@[simp] theorem advance_unfenced (s : State) : (s.advance).unfenced = s.unfenced := rfl
@[simp] theorem advance_scDraws (s : State) : (s.advance).scDraws = s.scDraws := rfl
@[simp] theorem advance_fetchDraws (s : State) : (s.advance).fetchDraws = s.fetchDraws := rfl

@[simp] theorem orFlags_cfg (s : State) (m : FFlags) : (s.orFlags m).cfg = s.cfg := rfl
@[simp] theorem orFlags_x (s : State) (m : FFlags) : (s.orFlags m).x = s.x := rfl
@[simp] theorem orFlags_pc (s : State) (m : FFlags) : (s.orFlags m).pc = s.pc := rfl
@[simp] theorem orFlags_f (s : State) (m : FFlags) : (s.orFlags m).f = s.f := rfl
@[simp] theorem orFlags_reservation (s : State) (m : FFlags) : (s.orFlags m).reservation = s.reservation := rfl
@[simp] theorem orFlags_mem (s : State) (m : FFlags) : (s.orFlags m).mem = s.mem := rfl
@[simp] theorem orFlags_status (s : State) (m : FFlags) : (s.orFlags m).status = s.status := rfl
@[simp] theorem orFlags_unfenced (s : State) (m : FFlags) : (s.orFlags m).unfenced = s.unfenced := rfl
@[simp] theorem orFlags_scDraws (s : State) (m : FFlags) : (s.orFlags m).scDraws = s.scDraws := rfl
@[simp] theorem orFlags_fetchDraws (s : State) (m : FFlags) : (s.orFlags m).fetchDraws = s.fetchDraws := rfl

@[simp] theorem memWrite_cfg (s : State) {w k : Nat} (a : BitVec w) (n : Nat) (v : BitVec k) : (s.memWrite a n v).cfg = s.cfg := rfl
@[simp] theorem memWrite_x (s : State) {w k : Nat} (a : BitVec w) (n : Nat) (v : BitVec k) : (s.memWrite a n v).x = s.x := rfl
@[simp] theorem memWrite_pc (s : State) {w k : Nat} (a : BitVec w) (n : Nat) (v : BitVec k) : (s.memWrite a n v).pc = s.pc := rfl
@[simp] theorem memWrite_f (s : State) {w k : Nat} (a : BitVec w) (n : Nat) (v : BitVec k) : (s.memWrite a n v).f = s.f := rfl
@[simp] theorem memWrite_fcsr (s : State) {w k : Nat} (a : BitVec w) (n : Nat) (v : BitVec k) : (s.memWrite a n v).fcsr = s.fcsr := rfl
@[simp] theorem memWrite_reservation (s : State) {w k : Nat} (a : BitVec w) (n : Nat) (v : BitVec k) : (s.memWrite a n v).reservation = s.reservation := rfl
@[simp] theorem memWrite_status (s : State) {w k : Nat} (a : BitVec w) (n : Nat) (v : BitVec k) : (s.memWrite a n v).status = s.status := rfl
@[simp] theorem memWrite_scDraws (s : State) {w k : Nat} (a : BitVec w) (n : Nat) (v : BitVec k) : (s.memWrite a n v).scDraws = s.scDraws := rfl
@[simp] theorem memWrite_fetchDraws (s : State) {w k : Nat} (a : BitVec w) (n : Nat) (v : BitVec k) : (s.memWrite a n v).fetchDraws = s.fetchDraws := rfl

@[simp] theorem takeTrap_cfg (s : State) (e : Exc) (v : DWord) : (s.takeTrap e v).cfg = s.cfg := rfl
@[simp] theorem takeTrap_x (s : State) (e : Exc) (v : DWord) : (s.takeTrap e v).x = s.x := rfl
@[simp] theorem takeTrap_pc (s : State) (e : Exc) (v : DWord) : (s.takeTrap e v).pc = s.pc := rfl
@[simp] theorem takeTrap_f (s : State) (e : Exc) (v : DWord) : (s.takeTrap e v).f = s.f := rfl
@[simp] theorem takeTrap_fcsr (s : State) (e : Exc) (v : DWord) : (s.takeTrap e v).fcsr = s.fcsr := rfl
@[simp] theorem takeTrap_reservation (s : State) (e : Exc) (v : DWord) : (s.takeTrap e v).reservation = s.reservation := rfl
@[simp] theorem takeTrap_mem (s : State) (e : Exc) (v : DWord) : (s.takeTrap e v).mem = s.mem := rfl
@[simp] theorem takeTrap_unfenced (s : State) (e : Exc) (v : DWord) : (s.takeTrap e v).unfenced = s.unfenced := rfl
@[simp] theorem takeTrap_scDraws (s : State) (e : Exc) (v : DWord) : (s.takeTrap e v).scDraws = s.scDraws := rfl
@[simp] theorem takeTrap_fetchDraws (s : State) (e : Exc) (v : DWord) : (s.takeTrap e v).fetchDraws = s.fetchDraws := rfl

@[simp] theorem fetchFence_cfg (s : State) : (fetchFence s).cfg = s.cfg := rfl
@[simp] theorem fetchFence_x (s : State) : (fetchFence s).x = s.x := rfl
@[simp] theorem fetchFence_pc (s : State) : (fetchFence s).pc = s.pc := rfl
@[simp] theorem fetchFence_f (s : State) : (fetchFence s).f = s.f := rfl
@[simp] theorem fetchFence_fcsr (s : State) : (fetchFence s).fcsr = s.fcsr := rfl
@[simp] theorem fetchFence_reservation (s : State) : (fetchFence s).reservation = s.reservation := rfl
@[simp] theorem fetchFence_mem (s : State) : (fetchFence s).mem = s.mem := rfl
@[simp] theorem fetchFence_status (s : State) : (fetchFence s).status = s.status := rfl
@[simp] theorem fetchFence_scDraws (s : State) : (fetchFence s).scDraws = s.scDraws := rfl
@[simp] theorem fetchFence_fetchDraws (s : State) : (fetchFence s).fetchDraws = s.fetchDraws := rfl

@[simp] theorem fenceEffect_cfg (p q : BitVec 4) (s : State) : (fenceEffect p q s).cfg = s.cfg := rfl
@[simp] theorem fenceEffect_x (p q : BitVec 4) (s : State) : (fenceEffect p q s).x = s.x := rfl
@[simp] theorem fenceEffect_pc (p q : BitVec 4) (s : State) : (fenceEffect p q s).pc = s.pc := rfl
@[simp] theorem fenceEffect_f (p q : BitVec 4) (s : State) : (fenceEffect p q s).f = s.f := rfl
@[simp] theorem fenceEffect_fcsr (p q : BitVec 4) (s : State) : (fenceEffect p q s).fcsr = s.fcsr := rfl
@[simp] theorem fenceEffect_reservation (p q : BitVec 4) (s : State) : (fenceEffect p q s).reservation = s.reservation := rfl
@[simp] theorem fenceEffect_mem (p q : BitVec 4) (s : State) : (fenceEffect p q s).mem = s.mem := rfl
@[simp] theorem fenceEffect_status (p q : BitVec 4) (s : State) : (fenceEffect p q s).status = s.status := rfl
@[simp] theorem fenceEffect_unfenced (p q : BitVec 4) (s : State) : (fenceEffect p q s).unfenced = s.unfenced := rfl
@[simp] theorem fenceEffect_scDraws (p q : BitVec 4) (s : State) : (fenceEffect p q s).scDraws = s.scDraws := rfl
@[simp] theorem fenceEffect_fetchDraws (p q : BitVec 4) (s : State) : (fenceEffect p q s).fetchDraws = s.fetchDraws := rfl

@[simp] theorem placeWord_x (s : State) (w : Word) : (s.placeWord w).x = s.x := rfl
@[simp] theorem placeWord_pc (s : State) (w : Word) : (s.placeWord w).pc = s.pc := rfl
@[simp] theorem placeWord_f (s : State) (w : Word) : (s.placeWord w).f = s.f := rfl
@[simp] theorem placeWord_fcsr (s : State) (w : Word) : (s.placeWord w).fcsr = s.fcsr := rfl
@[simp] theorem placeWord_reservation (s : State) (w : Word) : (s.placeWord w).reservation = s.reservation := rfl
@[simp] theorem placeWord_scDraws (s : State) (w : Word) : (s.placeWord w).scDraws = s.scDraws := rfl
@[simp] theorem placeWord_fetchDraws (s : State) (w : Word) : (s.placeWord w).fetchDraws = s.fetchDraws := rfl

@[simp] theorem wF_f (s : State) (r : FReg) (v : DWord) :
    (s.wF r v).f = s.f.set r.toNat v (by have := r.isLt; omega) := rfl
@[simp] theorem setPc_pc (s : State) {n : Nat} (t : BitVec n) :
    (s.setPc t).pc = (t.setWidth s.cfg.xlen.bits).setWidth 64 := rfl
@[simp] theorem orFlags_fcsr (s : State) (m : FFlags) : (s.orFlags m).fcsr = s.fcsr ||| m.setWidth 32 := rfl
@[simp] theorem fetchFence_unfenced (s : State) : (fetchFence s).unfenced = [] := rfl
@[simp] theorem placeWord_status (s : State) (w : Word) : (s.placeWord w).status = .running := rfl
@[simp] theorem withFetchWord_eq (s : State) (nbits w : Nat) :
    s.withFetchWord nbits w = s.placeWord (BitVec.ofNat 32 (w % 2 ^ nbits)) := rfl

end Sys2Proof.Laws
end

