-- ==== Sys2Proof/Laws/Memory.lean ====
section
/-! SUPPORT. Memory: every operation keeps the canonical form, a byte reads back, and other bytes stay as they were. -/
namespace Sys2Proof.Laws

open Sys2Proof.Machine

/-- The canonical form, unfolded one cell at a time. -/
theorem Memory_wf_cons (c : Host.Cell) (m : Memory) :
    Memory.wf (c :: m) = true ↔ (∀ d ∈ m, c.1 < d.1) ∧ c.2 ≠ Memory.unlisted ∧ Memory.wf m = true := by
  simp only [Memory.wf, List.pairwise_cons, List.all_cons, Bool.and_eq_true, decide_eq_true_eq, bne_iff_ne]
  tauto

@[simp] theorem Memory_wf_nil : Memory.wf [] = true := rfl

/-- Every cell after an insertion is the inserted one or an old one. -/
theorem mem_memInsert {a : Nat} {v : Byte} {m : Memory} {d : Host.Cell} (h : d ∈ memInsert a v m) :
    d = (a, v) ∨ d ∈ m := by
  induction m with
  | nil => simp only [memInsert] at h; split at h <;> simp_all
  | cons c m ih =>
    simp only [memInsert] at h
    split_ifs at h <;> simp_all <;> tauto

/-- Setting a byte keeps the canonical form. -/
theorem memInsert_wf (a : Nat) (v : Byte) (m : Memory) (h : Memory.wf m = true) :
    Memory.wf (memInsert a v m) = true := by
  induction m with
  | nil =>
    simp only [memInsert]
    split
    · rfl
    · rw [Memory_wf_cons]; simp_all
  | cons c m ih =>
    obtain ⟨h1, h2, h3⟩ := (Memory_wf_cons c m).1 h
    simp only [memInsert]
    split_ifs with ha hv ha' hv
    · exact h
    · refine (Memory_wf_cons _ _).2 ⟨?_, hv, h⟩
      intro d hd
      rcases List.mem_cons.1 hd with rfl | hd
      · exact ha
      · exact lt_trans ha (h1 d hd)
    · exact h3
    · exact (Memory_wf_cons _ _).2 ⟨by subst ha'; exact h1, hv, h3⟩
    · refine (Memory_wf_cons _ _).2 ⟨?_, h2, ih h3⟩
      intro d hd
      rcases mem_memInsert hd with rfl | hd
      · show c.1 < a; omega
      · exact h1 d hd

theorem memByte_nil (a : Nat) : memByte [] a = Memory.unlisted := rfl

theorem memByte_cons (c : Host.Cell) (m : Memory) (a : Nat) :
    memByte (c :: m) a = if a = c.1 then c.2 else memByte m a := by
  simp only [memByte, List.lookup]
  by_cases h : a = c.1
  · simp [h]
  · rw [show (a == c.1) = false from by simpa using h]; simp [h]

/-- In canonical form an address below every listed one is not listed. -/
theorem memByte_lt {m : Memory} {a : Nat} (h : ∀ d ∈ m, a < d.1) : memByte m a = Memory.unlisted := by
  induction m with
  | nil => rfl
  | cons c m ih =>
    have hc := h c (by simp)
    rw [memByte_cons, if_neg (by omega), ih fun d hd => h d (by simp [hd])]

/-- A byte set reads back. -/
theorem memByte_memInsert_same (a : Nat) (v : Byte) (m : Memory) (h : Memory.wf m = true) :
    memByte (memInsert a v m) a = v := by
  induction m with
  | nil => simp only [memInsert]; split <;> simp_all [memByte_cons, memByte_nil]
  | cons c m ih =>
    obtain ⟨h1, h2, h3⟩ := (Memory_wf_cons c m).1 h
    simp only [memInsert]
    split_ifs with ha hv ha' hv
    · rw [memByte_lt, hv]
      intro d hd
      rcases List.mem_cons.1 hd with rfl | hd
      · exact ha
      · exact lt_trans ha (h1 d hd)
    · rw [memByte_cons, if_pos rfl]
    · rw [memByte_lt, hv]; subst ha'; exact h1
    · rw [memByte_cons, if_pos rfl]
    · rw [memByte_cons, if_neg ha', ih h3]

/-- Setting a byte leaves every other byte as it was. -/
theorem memByte_memInsert_other {a b : Nat} (hab : b ≠ a) (v : Byte) (m : Memory) :
    memByte (memInsert a v m) b = memByte m b := by
  induction m with
  | nil =>
    simp only [memInsert]
    split
    · rfl
    · rw [memByte_cons, if_neg hab]
  | cons c m ih =>
    simp only [memInsert]
    split_ifs with ha hv ha' hv
    · rfl
    · rw [memByte_cons, if_neg hab]
    · rw [memByte_cons, if_neg (by omega)]
    · rw [memByte_cons, if_neg hab, memByte_cons, if_neg (by omega)]
    · rw [memByte_cons, memByte_cons, ih]

/-- Storing bytes keeps the canonical form. -/
theorem storeBytes_wf (cs : List Host.Cell) (mu : Memory × Unfenced) (h : Memory.wf mu.1 = true) :
    Memory.wf (storeBytes cs mu).1 = true := by
  induction cs generalizing mu with
  | nil => exact h
  | cons c cs ih => exact ih _ (memInsert_wf _ _ _ h)

/-- Storing bytes leaves every byte it does not store as it was. -/
theorem memByte_storeBytes_other (cs : List Host.Cell) (mu : Memory × Unfenced) {a : Nat}
    (h : a ∉ cs.map Prod.fst) : memByte (storeBytes cs mu).1 a = memByte mu.1 a := by
  induction cs generalizing mu with
  | nil => rfl
  | cons c cs ih =>
    simp only [List.map_cons, List.mem_cons, not_or] at h
    exact (ih _ h.2).trans (memByte_memInsert_other h.1 _ _)

/-- Storing bytes at different addresses makes each of them read back. -/
theorem memByte_storeBytes_mem (cs : List Host.Cell) (mu : Memory × Unfenced) (hw : Memory.wf mu.1 = true)
    (hn : (cs.map Prod.fst).Nodup) {c : Host.Cell} (h : c ∈ cs) : memByte (storeBytes cs mu).1 c.1 = c.2 := by
  induction cs generalizing mu with
  | nil => cases h
  | cons d cs ih =>
    simp only [List.map_cons, List.nodup_cons] at hn
    rcases List.mem_cons.1 h with rfl | h
    · rw [storeBytes, memByte_storeBytes_other _ _ hn.1, memByte_memInsert_same _ _ _ hw]
    · exact ih _ (memInsert_wf _ _ _ hw) hn.2 h

theorem storeCells_addrs {w k : Nat} (a : BitVec w) (n : Nat) (v : BitVec k) :
    (storeCells a n v).map Prod.fst = byteAddrs a n := by
  simp [storeCells, byteAddrs, Function.comp_def]

/-- The bytes of an access are different when it is no longer than the address space. -/
theorem byteAddrs_nodup {w : Nat} (a : BitVec w) {n : Nat} (h : n ≤ 2 ^ w) : (byteAddrs a n).Nodup := by
  refine List.Nodup.map_on ?_ List.nodup_range
  intro i hi j hj e
  have e' : a + BitVec.ofNat w i = a + BitVec.ofNat w j := BitVec.eq_of_toNat_eq e
  have e2 : BitVec.ofNat w i = BitVec.ofNat w j := by simpa using e'
  have e3 := congrArg BitVec.toNat e2
  simp only [BitVec.toNat_ofNat, List.mem_range] at *
  rwa [Nat.mod_eq_of_lt (by omega), Nat.mod_eq_of_lt (by omega)] at e3

/-- A store keeps the canonical form. -/
theorem memWrite_wf (s : State) {w k : Nat} (a : BitVec w) (n : Nat) (v : BitVec k) (h : Memory.wf s.mem = true) :
    Memory.wf (s.memWrite a n v).mem = true := storeBytes_wf _ _ h

/-- A store leaves every byte outside its own as it was. -/
theorem memByte_memWrite_other (s : State) {w k : Nat} (a : BitVec w) (n : Nat) (v : BitVec k) {b : Nat}
    (h : b ∉ byteAddrs a n) : memByte (s.memWrite a n v).mem b = memByte s.mem b :=
  memByte_storeBytes_other _ _ (by rwa [storeCells_addrs])

/-- Placing bytes keeps the canonical form. -/
theorem placeCells_wf (cs : List Host.Cell) (m : Memory) (h : Memory.wf m = true) :
    Memory.wf (placeCells cs m) = true := by
  induction cs generalizing m with
  | nil => exact h
  | cons c cs ih => exact ih _ (memInsert_wf _ _ _ h)

/-- Placing a word keeps the canonical form. -/
theorem placeWord_wf (s : State) (w : Word) (h : Memory.wf s.mem = true) :
    Memory.wf (s.placeWord w).mem = true := placeCells_wf _ _ h

/-- The memory after reset is in canonical form. -/
theorem reset_mem_wf : Memory.wf State.reset.mem = true := rfl

end Sys2Proof.Laws
end

