-- ==== Sys2Proof/Laws/Registers.lean ====
section
/-! SUPPORT. Reading registers and the pc after writing them. -/
namespace Sys2Proof.Laws

open Sys2Proof.Machine

@[simp] theorem rX_zero (s : State) : s.rX 0 = 0 := by simp [State.rX]

/-- Two states with the same width and the same integer registers read alike. -/
theorem rX_toNat_congr {s t : State} (hc : t.cfg = s.cfg) (hx : t.x = s.x) (r : XReg) :
    (t.rX r).toNat = (s.rX r).toNat := by
  simp only [State.rX]
  split
  · simp
  · simp only [BitVec.toNat_setWidth, hc, hx]

/-- A write reads back as the value cut to XLEN bits. -/
theorem rX_wX_same (s : State) {r : XReg} (h : r ≠ 0) {n : Nat} (v : BitVec n) :
    ((s.wX r v).rX r).toNat = v.toNat % 2 ^ s.cfg.xlen.bits := by
  simp only [State.rX, State.wX, h, ↓reduceIte, Vector.getElem_set_self, BitVec.toNat_setWidth]
  cases s.cfg.xlen <;> simp [XLen.bits]

/-- A write leaves every other register as it was. -/
theorem rX_wX_other (s : State) {r r' : XReg} (h : r' ≠ r) {n : Nat} (v : BitVec n) :
    ((s.wX r v).rX r').toNat = (s.rX r').toNat := by
  by_cases h0 : r' = 0
  · simp [State.rX, h0]
  by_cases h1 : r = 0
  · simp [State.rX, State.wX, h1]
  have hne : r.toNat - 1 ≠ r'.toNat - 1 := by
    intro e
    apply h
    apply BitVec.eq_of_toNat_eq
    have a : r.toNat ≠ 0 := fun z => h1 (BitVec.eq_of_toNat_eq z)
    have b : r'.toNat ≠ 0 := fun z => h0 (BitVec.eq_of_toNat_eq z)
    omega
  simp only [State.rX, State.wX, h0, h1, ↓reduceIte, BitVec.toNat_setWidth]
  rw [Vector.getElem_set_ne _ _ hne]

@[simp] theorem rF_wF_same (s : State) (r : FReg) (v : DWord) : (s.wF r v).rF r = v := by
  simp [State.rF]

theorem rF_wF_other (s : State) {r r' : FReg} (h : r' ≠ r) (v : DWord) : (s.wF r v).rF r' = s.rF r' := by
  have hne : r.toNat ≠ r'.toNat := fun e => h (BitVec.eq_of_toNat_eq e.symm)
  simp only [State.rF, wF_f]
  rw [Vector.getElem_set_ne _ _ hne]

/-- The pc after `setPc` is the target cut to XLEN bits. -/
theorem setPc_toNat (s : State) {n : Nat} (t : BitVec n) : (s.setPc t).pc.toNat = t.toNat % 2 ^ s.cfg.xlen.bits := by
  simp only [setPc_pc, BitVec.toNat_setWidth]
  cases s.cfg.xlen with
  | rv32 => simp only [XLen.bits]; omega
  | rv64 => simp [XLen.bits]

theorem rPc_toNat (s : State) : s.rPc.toNat = s.pc.toNat % 2 ^ s.cfg.xlen.bits := by
  simp [State.rPc]

/-- The sequential advance is `pc + 4` modulo 2^XLEN. -/
theorem advance_toNat (s : State) : s.advance.pc.toNat = (s.pc.toNat + 4) % 2 ^ s.cfg.xlen.bits := by
  rw [State.advance, setPc_toNat, BitVec.toNat_add, rPc_toNat]
  cases s.cfg.xlen <;> simp [XLen.bits]

end Sys2Proof.Laws
end

