-- ==== Sys2Proof/Laws/Ops.lean ====
section
/-! SUPPORT. For each shared operation, once, everything it can answer. -/
namespace Sys2Proof.Laws

open Sys2Proof.Machine

theorem raise_eq (s : State) (e : Exc) {n : Nat} (v : BitVec n) :
    raise s e v = .next (s.takeTrap e (v.setWidth 64)) := rfl

theorem finishX_eq (s : State) (rd : XReg) {n : Nat} (v : BitVec n) :
    s.finishX rd v = .next (s.wX rd v).advance := rfl

theorem finishF_eq (s : State) (rd : FReg) (v : DWord) : s.finishF rd v = .next (s.wF rd v).advance := rfl

/-- An XLEN = 64 instruction: its own effect at XLEN = 64, an illegal word at XLEN = 32. -/
theorem onRv64_cases {s t : State} {i : Instr} {k : Res} (h : onRv64 s i k = .next t) :
    (s.cfg.xlen = .rv64 ∧ k = .next t) ∨
    (s.cfg.xlen = .rv32 ∧ t = s.takeTrap .illegalInstruction ((encode i).setWidth 64)) := by
  unfold onRv64 at h
  split at h
  · exact .inl ⟨by assumption, h⟩
  · rw [raise_eq] at h
    injection h with h
    exact .inr ⟨by assumption, h.symm⟩

theorem onRv64_of_rv64 {s : State} (h : s.cfg.xlen = .rv64) (i : Instr) (k : Res) : onRv64 s i k = k := by
  simp [onRv64, h]

/-- A jump: to an aligned target with the return address written, or the exception. -/
theorem jump_cases {s t : State} {rd : XReg} {a : BitVec s.cfg.xlen.bits} (h : jump s rd a = .next t) :
    (a.extractLsb' 0 2 = 0 ∧ t = (s.wX rd (s.rPc + 4)).setPc a) ∨
    (a.extractLsb' 0 2 ≠ 0 ∧ t = s.takeTrap .instructionAddressMisaligned (a.setWidth 64)) := by
  unfold jump at h
  split at h <;> injection h with h <;> simp_all

/-- A branch: not taken, taken to an aligned target, or the exception. -/
theorem branch_cases {s t : State} {c : Bool} {off : BitVec 13} (h : branch s c off = .next t) :
    (c = false ∧ t = s.advance) ∨
    (c = true ∧ (s.rPc + off.signExtend s.cfg.xlen.bits).extractLsb' 0 2 = 0 ∧
      t = s.setPc (s.rPc + off.signExtend s.cfg.xlen.bits)) ∨
    (c = true ∧ (s.rPc + off.signExtend s.cfg.xlen.bits).extractLsb' 0 2 ≠ 0 ∧
      t = s.takeTrap .instructionAddressMisaligned ((s.rPc + off.signExtend s.cfg.xlen.bits).setWidth 64)) := by
  simp only [branch] at h
  split_ifs at h <;> injection h with h <;> simp_all

/-- A load: the continuation with the value read, or the exception. -/
theorem load_cases {s t : State} {w n : Nat} {a : BitVec w} {k : BitVec (8 * n) → Res} (h : load s a n k = .next t) :
    (s.accessExc .load false a n = none ∧ k (s.memRead a n) = .next t) ∨
    ∃ e, s.accessExc .load false a n = some e ∧ t = s.takeTrap e (a.setWidth 64) := by
  unfold load at h
  split at h
  · rw [raise_eq] at h; injection h with h; exact .inr ⟨_, by assumption, h.symm⟩
  · exact .inl ⟨by assumption, h⟩

theorem load_of_none {s : State} {w n : Nat} {a : BitVec w} (h : s.accessExc .load false a n = none)
    (k : BitVec (8 * n) → Res) : load s a n k = k (s.memRead a n) := by
  simp [load, h]

/-- A store: the bytes written and the advance, or the exception. -/
theorem store_cases {s t : State} {w k n : Nat} {a : BitVec w} {v : BitVec k} (h : store s a n v = .next t) :
    (s.accessExc .store false a n = none ∧ t = (s.memWrite a n v).advance) ∨
    ∃ e, s.accessExc .store false a n = some e ∧ t = s.takeTrap e (a.setWidth 64) := by
  unfold store at h
  split at h
  · rw [raise_eq] at h; injection h with h; exact .inr ⟨_, by assumption, h.symm⟩
  · injection h with h; exact .inl ⟨by assumption, h.symm⟩

/-- An LR: the reservation made and the value written, or the exception. -/
theorem loadReserved_cases {s t : State} {rd : XReg} {w n : Nat} {a : BitVec w}
    (h : loadReserved s rd a n = .next t) :
    (s.accessExc .load true a n = none ∧
      t = (({ s with reservation := some (s.reservationAt a n) } : State).wX rd
        ((s.memRead a n).signExtend s.cfg.xlen.bits)).advance) ∨
    ∃ e, s.accessExc .load true a n = some e ∧ t = s.takeTrap e (a.setWidth 64) := by
  unfold loadReserved at h
  split at h
  · rw [raise_eq] at h; injection h with h; exact .inr ⟨_, by assumption, h.symm⟩
  · injection h with h; exact .inl ⟨by assumption, h.symm⟩

/-- An SC: success, failure by the draw, failure for want of the reservation, or the exception. -/
theorem storeConditional_cases {s t : State} {rd : XReg} {w k n : Nat} {a : BitVec w} {v : BitVec k}
    (h : storeConditional s rd a n v = .next t) :
    (s.accessExc .store true a n = none ∧ s.reserved a n = true ∧ Config.scFails s.scDraws = false ∧
      t = ((({ s with reservation := none, scDraws := s.scDraws + 1 } : State).memWrite a n v).wX rd
        (0 : DWord)).advance) ∨
    (s.accessExc .store true a n = none ∧ s.reserved a n = true ∧ Config.scFails s.scDraws = true ∧
      t = (({ s with reservation := none, scDraws := s.scDraws + 1 } : State).wX rd
        (BitVec.ofNat 64 Config.scFailCode)).advance) ∨
    (s.accessExc .store true a n = none ∧ s.reserved a n = false ∧
      t = (({ s with reservation := none } : State).wX rd (BitVec.ofNat 64 Config.scFailCode)).advance) ∨
    ∃ e, s.accessExc .store true a n = some e ∧ t = s.takeTrap e (a.setWidth 64) := by
  unfold storeConditional at h
  split at h
  · rw [raise_eq] at h; injection h with h; exact .inr (.inr (.inr ⟨_, by assumption, h.symm⟩))
  · rename_i hn
    split_ifs at h with hr hf
    · injection h with h; exact .inr (.inl ⟨hn, hr, hf, h.symm⟩)
    · injection h with h; exact .inl ⟨hn, hr, by simpa using hf, h.symm⟩
    · injection h with h; exact .inr (.inr (.inl ⟨hn, by simpa using hr, h.symm⟩))

/-- An AMO: the bytes written and the old value in `rd`, or the exception. -/
theorem amo_cases {s t : State} {rd : XReg} {w n : Nat} {a : BitVec w}
    {op : BitVec (8 * n) → BitVec (8 * n) → BitVec (8 * n)} {v : BitVec (8 * n)} (h : amo s rd a n op v = .next t) :
    (s.accessExc .store true a n = none ∧
      t = ((s.memWrite a n (op (s.memRead a n) v)).wX rd ((s.memRead a n).signExtend s.cfg.xlen.bits)).advance) ∨
    ∃ e, s.accessExc .store true a n = some e ∧ t = s.takeTrap e (a.setWidth 64) := by
  unfold amo at h
  split at h
  · rw [raise_eq] at h; injection h with h; exact .inr ⟨_, by assumption, h.symm⟩
  · injection h with h; exact .inl ⟨by assumption, h.symm⟩

/-- An instruction with a rounding mode: its own effect in that mode, or the exception. -/
theorem withRm_cases {s t : State} {i : Instr} {rm : Rm} {k : RMode → Res} (h : withRm s i rm k = .next t) :
    (∃ m, s.roundingMode rm = some m ∧ k m = .next t) ∨
    (s.roundingMode rm = none ∧ t = s.takeTrap .illegalInstruction ((encode i).setWidth 64)) := by
  unfold withRm at h
  split at h
  · exact .inl ⟨_, by assumption, h⟩
  · rw [raise_eq] at h; injection h with h; exact .inr ⟨by assumption, h.symm⟩

theorem withRm_of_some {s : State} {rm : Rm} {m : RMode} (h : s.roundingMode rm = some m) (i : Instr)
    (k : RMode → Res) : withRm s i rm k = k m := by
  simp [withRm, h]

/-- When an access raises nothing: aligned, or plain under MISALIGNED_DATA = emulate; and all bytes in MEM_MAP. -/
theorem accessExc_eq_none {s : State} {k : Access} {atomic : Bool} {w n : Nat} {a : BitVec w} :
    s.accessExc k atomic a n = none ↔
      (a.toNat % n = 0 ∨ (atomic = false ∧ s.cfg.misaligned = .emulate)) ∧
      ∀ b ∈ byteAddrs a n, s.cfg.mapped b = true := by
  simp only [State.accessExc]
  have hm : s.cfg.misaligned ≠ .trap ↔ s.cfg.misaligned = .emulate := by
    cases s.cfg.misaligned <;> simp
  split_ifs with h1 h2
  · simp only [false_iff, not_and]
    rintro (h | ⟨h, h'⟩)
    · exact absurd h h1.1
    · rcases h1.2 with h2 | h2 <;> simp_all
  · simp only [true_iff]
    refine ⟨?_, by simpa using h2⟩
    by_cases h : a.toNat % n = 0
    · exact .inl h
    · refine .inr ?_
      have := fun q => h1 ⟨h, q⟩
      refine ⟨by simpa using fun q => this (.inl q), hm.1 fun q => this (.inr q)⟩
  · simp only [false_iff, not_and]
    intro _ h
    exact h2 (by simpa using h)

end Sys2Proof.Laws
end

