-- ==== Sys2Proof/Laws/PerInstr.lean ====
section
/-!
SUPPORT. Per instruction: its word is a word of its own row, and the row reads its operands back.
-/
namespace Sys2Proof.Laws

set_option Elab.async false


/-- Some row of the opcode table has the instruction's XLEN column, matches its word, and builds it from that word. -/
def EncodeMatches.Statement (i : Instr) : Prop :=
  i.offsetEven = true →
    ∃ r ∈ opcodeTable, r.xlens = i.admission ∧ encode i &&& r.mask = r.value ∧ r.build (encode i) = i

theorem encode_lui (rd : XReg) (imm : BitVec 20) : encode (.lui rd imm) = encU imm rd 0b0110111 := rfl
theorem encode_auipc (rd : XReg) (imm : BitVec 20) : encode (.auipc rd imm) = encU imm rd 0b0010111 := rfl
theorem encode_jal (rd : XReg) (off : BitVec 21) : encode (.jal rd off) = encJ off rd 0b1101111 := rfl
theorem encode_jalr (rd : XReg) (rs1 : XReg) (imm : BitVec 12) : encode (.jalr rd rs1 imm) = encI imm rs1 0b000 rd 0b1100111 := rfl
theorem encode_beq (rs1 : XReg) (rs2 : XReg) (off : BitVec 13) : encode (.beq rs1 rs2 off) = encB off rs2 rs1 0b000 0b1100011 := rfl
theorem encode_bne (rs1 : XReg) (rs2 : XReg) (off : BitVec 13) : encode (.bne rs1 rs2 off) = encB off rs2 rs1 0b001 0b1100011 := rfl
theorem encode_blt (rs1 : XReg) (rs2 : XReg) (off : BitVec 13) : encode (.blt rs1 rs2 off) = encB off rs2 rs1 0b100 0b1100011 := rfl
theorem encode_bge (rs1 : XReg) (rs2 : XReg) (off : BitVec 13) : encode (.bge rs1 rs2 off) = encB off rs2 rs1 0b101 0b1100011 := rfl
theorem encode_bltu (rs1 : XReg) (rs2 : XReg) (off : BitVec 13) : encode (.bltu rs1 rs2 off) = encB off rs2 rs1 0b110 0b1100011 := rfl
theorem encode_bgeu (rs1 : XReg) (rs2 : XReg) (off : BitVec 13) : encode (.bgeu rs1 rs2 off) = encB off rs2 rs1 0b111 0b1100011 := rfl
theorem encode_lb (rd : XReg) (rs1 : XReg) (imm : BitVec 12) : encode (.lb rd rs1 imm) = encI imm rs1 0b000 rd 0b0000011 := rfl
theorem encode_lh (rd : XReg) (rs1 : XReg) (imm : BitVec 12) : encode (.lh rd rs1 imm) = encI imm rs1 0b001 rd 0b0000011 := rfl
theorem encode_lw (rd : XReg) (rs1 : XReg) (imm : BitVec 12) : encode (.lw rd rs1 imm) = encI imm rs1 0b010 rd 0b0000011 := rfl
theorem encode_lbu (rd : XReg) (rs1 : XReg) (imm : BitVec 12) : encode (.lbu rd rs1 imm) = encI imm rs1 0b100 rd 0b0000011 := rfl
theorem encode_lhu (rd : XReg) (rs1 : XReg) (imm : BitVec 12) : encode (.lhu rd rs1 imm) = encI imm rs1 0b101 rd 0b0000011 := rfl
theorem encode_sb (rs2 : XReg) (rs1 : XReg) (imm : BitVec 12) : encode (.sb rs2 rs1 imm) = encS imm rs2 rs1 0b000 0b0100011 := rfl
theorem encode_sh (rs2 : XReg) (rs1 : XReg) (imm : BitVec 12) : encode (.sh rs2 rs1 imm) = encS imm rs2 rs1 0b001 0b0100011 := rfl
theorem encode_sw (rs2 : XReg) (rs1 : XReg) (imm : BitVec 12) : encode (.sw rs2 rs1 imm) = encS imm rs2 rs1 0b010 0b0100011 := rfl
theorem encode_addi (rd : XReg) (rs1 : XReg) (imm : BitVec 12) : encode (.addi rd rs1 imm) = encI imm rs1 0b000 rd 0b0010011 := rfl
theorem encode_slti (rd : XReg) (rs1 : XReg) (imm : BitVec 12) : encode (.slti rd rs1 imm) = encI imm rs1 0b010 rd 0b0010011 := rfl
theorem encode_sltiu (rd : XReg) (rs1 : XReg) (imm : BitVec 12) : encode (.sltiu rd rs1 imm) = encI imm rs1 0b011 rd 0b0010011 := rfl
theorem encode_xori (rd : XReg) (rs1 : XReg) (imm : BitVec 12) : encode (.xori rd rs1 imm) = encI imm rs1 0b100 rd 0b0010011 := rfl
theorem encode_ori (rd : XReg) (rs1 : XReg) (imm : BitVec 12) : encode (.ori rd rs1 imm) = encI imm rs1 0b110 rd 0b0010011 := rfl
theorem encode_andi (rd : XReg) (rs1 : XReg) (imm : BitVec 12) : encode (.andi rd rs1 imm) = encI imm rs1 0b111 rd 0b0010011 := rfl
theorem encode_slli32 (rd : XReg) (rs1 : XReg) (shamt : BitVec 5) : encode (.slli32 rd rs1 shamt) = encShift5 0b0000000 shamt rs1 0b001 rd 0b0010011 := rfl
theorem encode_srli32 (rd : XReg) (rs1 : XReg) (shamt : BitVec 5) : encode (.srli32 rd rs1 shamt) = encShift5 0b0000000 shamt rs1 0b101 rd 0b0010011 := rfl
theorem encode_srai32 (rd : XReg) (rs1 : XReg) (shamt : BitVec 5) : encode (.srai32 rd rs1 shamt) = encShift5 0b0100000 shamt rs1 0b101 rd 0b0010011 := rfl
theorem encode_add (rd : XReg) (rs1 : XReg) (rs2 : XReg) : encode (.add rd rs1 rs2) = encR 0b0000000 rs2 rs1 0b000 rd 0b0110011 := rfl
theorem encode_sub (rd : XReg) (rs1 : XReg) (rs2 : XReg) : encode (.sub rd rs1 rs2) = encR 0b0100000 rs2 rs1 0b000 rd 0b0110011 := rfl
theorem encode_sll (rd : XReg) (rs1 : XReg) (rs2 : XReg) : encode (.sll rd rs1 rs2) = encR 0b0000000 rs2 rs1 0b001 rd 0b0110011 := rfl
theorem encode_slt (rd : XReg) (rs1 : XReg) (rs2 : XReg) : encode (.slt rd rs1 rs2) = encR 0b0000000 rs2 rs1 0b010 rd 0b0110011 := rfl
theorem encode_sltu (rd : XReg) (rs1 : XReg) (rs2 : XReg) : encode (.sltu rd rs1 rs2) = encR 0b0000000 rs2 rs1 0b011 rd 0b0110011 := rfl
theorem encode_xor (rd : XReg) (rs1 : XReg) (rs2 : XReg) : encode (.xor rd rs1 rs2) = encR 0b0000000 rs2 rs1 0b100 rd 0b0110011 := rfl
theorem encode_srl (rd : XReg) (rs1 : XReg) (rs2 : XReg) : encode (.srl rd rs1 rs2) = encR 0b0000000 rs2 rs1 0b101 rd 0b0110011 := rfl
theorem encode_sra (rd : XReg) (rs1 : XReg) (rs2 : XReg) : encode (.sra rd rs1 rs2) = encR 0b0100000 rs2 rs1 0b101 rd 0b0110011 := rfl
theorem encode_or (rd : XReg) (rs1 : XReg) (rs2 : XReg) : encode (.or rd rs1 rs2) = encR 0b0000000 rs2 rs1 0b110 rd 0b0110011 := rfl
theorem encode_and (rd : XReg) (rs1 : XReg) (rs2 : XReg) : encode (.and rd rs1 rs2) = encR 0b0000000 rs2 rs1 0b111 rd 0b0110011 := rfl
theorem encode_fence (pred : BitVec 4) (succ : BitVec 4) : encode (.fence pred succ) = encFence pred succ 0b000 := rfl
theorem encode_fenceI  : encode (.fenceI) = encFence 0 0 0b001 := rfl
theorem encode_lwu (rd : XReg) (rs1 : XReg) (imm : BitVec 12) : encode (.lwu rd rs1 imm) = encI imm rs1 0b110 rd 0b0000011 := rfl
theorem encode_ld (rd : XReg) (rs1 : XReg) (imm : BitVec 12) : encode (.ld rd rs1 imm) = encI imm rs1 0b011 rd 0b0000011 := rfl
theorem encode_sd (rs2 : XReg) (rs1 : XReg) (imm : BitVec 12) : encode (.sd rs2 rs1 imm) = encS imm rs2 rs1 0b011 0b0100011 := rfl
theorem encode_slli64 (rd : XReg) (rs1 : XReg) (shamt : BitVec 6) : encode (.slli64 rd rs1 shamt) = encShift6 0b000000 shamt rs1 0b001 rd 0b0010011 := rfl
theorem encode_srli64 (rd : XReg) (rs1 : XReg) (shamt : BitVec 6) : encode (.srli64 rd rs1 shamt) = encShift6 0b000000 shamt rs1 0b101 rd 0b0010011 := rfl
theorem encode_srai64 (rd : XReg) (rs1 : XReg) (shamt : BitVec 6) : encode (.srai64 rd rs1 shamt) = encShift6 0b010000 shamt rs1 0b101 rd 0b0010011 := rfl
theorem encode_addiw (rd : XReg) (rs1 : XReg) (imm : BitVec 12) : encode (.addiw rd rs1 imm) = encI imm rs1 0b000 rd 0b0011011 := rfl
theorem encode_slliw (rd : XReg) (rs1 : XReg) (shamt : BitVec 5) : encode (.slliw rd rs1 shamt) = encShift5 0b0000000 shamt rs1 0b001 rd 0b0011011 := rfl
theorem encode_srliw (rd : XReg) (rs1 : XReg) (shamt : BitVec 5) : encode (.srliw rd rs1 shamt) = encShift5 0b0000000 shamt rs1 0b101 rd 0b0011011 := rfl
theorem encode_sraiw (rd : XReg) (rs1 : XReg) (shamt : BitVec 5) : encode (.sraiw rd rs1 shamt) = encShift5 0b0100000 shamt rs1 0b101 rd 0b0011011 := rfl
theorem encode_addw (rd : XReg) (rs1 : XReg) (rs2 : XReg) : encode (.addw rd rs1 rs2) = encR 0b0000000 rs2 rs1 0b000 rd 0b0111011 := rfl
theorem encode_subw (rd : XReg) (rs1 : XReg) (rs2 : XReg) : encode (.subw rd rs1 rs2) = encR 0b0100000 rs2 rs1 0b000 rd 0b0111011 := rfl
theorem encode_sllw (rd : XReg) (rs1 : XReg) (rs2 : XReg) : encode (.sllw rd rs1 rs2) = encR 0b0000000 rs2 rs1 0b001 rd 0b0111011 := rfl
theorem encode_srlw (rd : XReg) (rs1 : XReg) (rs2 : XReg) : encode (.srlw rd rs1 rs2) = encR 0b0000000 rs2 rs1 0b101 rd 0b0111011 := rfl
theorem encode_sraw (rd : XReg) (rs1 : XReg) (rs2 : XReg) : encode (.sraw rd rs1 rs2) = encR 0b0100000 rs2 rs1 0b101 rd 0b0111011 := rfl
theorem encode_mul (rd : XReg) (rs1 : XReg) (rs2 : XReg) : encode (.mul rd rs1 rs2) = encR 0b0000001 rs2 rs1 0b000 rd 0b0110011 := rfl
theorem encode_mulh (rd : XReg) (rs1 : XReg) (rs2 : XReg) : encode (.mulh rd rs1 rs2) = encR 0b0000001 rs2 rs1 0b001 rd 0b0110011 := rfl
theorem encode_mulhsu (rd : XReg) (rs1 : XReg) (rs2 : XReg) : encode (.mulhsu rd rs1 rs2) = encR 0b0000001 rs2 rs1 0b010 rd 0b0110011 := rfl
theorem encode_mulhu (rd : XReg) (rs1 : XReg) (rs2 : XReg) : encode (.mulhu rd rs1 rs2) = encR 0b0000001 rs2 rs1 0b011 rd 0b0110011 := rfl
theorem encode_div (rd : XReg) (rs1 : XReg) (rs2 : XReg) : encode (.div rd rs1 rs2) = encR 0b0000001 rs2 rs1 0b100 rd 0b0110011 := rfl
theorem encode_divu (rd : XReg) (rs1 : XReg) (rs2 : XReg) : encode (.divu rd rs1 rs2) = encR 0b0000001 rs2 rs1 0b101 rd 0b0110011 := rfl
theorem encode_rem (rd : XReg) (rs1 : XReg) (rs2 : XReg) : encode (.rem rd rs1 rs2) = encR 0b0000001 rs2 rs1 0b110 rd 0b0110011 := rfl
theorem encode_remu (rd : XReg) (rs1 : XReg) (rs2 : XReg) : encode (.remu rd rs1 rs2) = encR 0b0000001 rs2 rs1 0b111 rd 0b0110011 := rfl
theorem encode_mulw (rd : XReg) (rs1 : XReg) (rs2 : XReg) : encode (.mulw rd rs1 rs2) = encR 0b0000001 rs2 rs1 0b000 rd 0b0111011 := rfl
theorem encode_divw (rd : XReg) (rs1 : XReg) (rs2 : XReg) : encode (.divw rd rs1 rs2) = encR 0b0000001 rs2 rs1 0b100 rd 0b0111011 := rfl
theorem encode_divuw (rd : XReg) (rs1 : XReg) (rs2 : XReg) : encode (.divuw rd rs1 rs2) = encR 0b0000001 rs2 rs1 0b101 rd 0b0111011 := rfl
theorem encode_remw (rd : XReg) (rs1 : XReg) (rs2 : XReg) : encode (.remw rd rs1 rs2) = encR 0b0000001 rs2 rs1 0b110 rd 0b0111011 := rfl
theorem encode_remuw (rd : XReg) (rs1 : XReg) (rs2 : XReg) : encode (.remuw rd rs1 rs2) = encR 0b0000001 rs2 rs1 0b111 rd 0b0111011 := rfl
theorem encode_lrW (rd : XReg) (rs1 : XReg) (aq : Bool) (rl : Bool) : encode (.lrW rd rs1 aq rl) = encAmo 0b00010 aq rl 0 rs1 0b010 rd := rfl
theorem encode_scW (rd : XReg) (rs2 : XReg) (rs1 : XReg) (aq : Bool) (rl : Bool) : encode (.scW rd rs2 rs1 aq rl) = encAmo 0b00011 aq rl rs2 rs1 0b010 rd := rfl
theorem encode_amoswapW (rd : XReg) (rs2 : XReg) (rs1 : XReg) (aq : Bool) (rl : Bool) : encode (.amoswapW rd rs2 rs1 aq rl) = encAmo 0b00001 aq rl rs2 rs1 0b010 rd := rfl
theorem encode_amoaddW (rd : XReg) (rs2 : XReg) (rs1 : XReg) (aq : Bool) (rl : Bool) : encode (.amoaddW rd rs2 rs1 aq rl) = encAmo 0b00000 aq rl rs2 rs1 0b010 rd := rfl
theorem encode_amoxorW (rd : XReg) (rs2 : XReg) (rs1 : XReg) (aq : Bool) (rl : Bool) : encode (.amoxorW rd rs2 rs1 aq rl) = encAmo 0b00100 aq rl rs2 rs1 0b010 rd := rfl
theorem encode_amoorW (rd : XReg) (rs2 : XReg) (rs1 : XReg) (aq : Bool) (rl : Bool) : encode (.amoorW rd rs2 rs1 aq rl) = encAmo 0b01000 aq rl rs2 rs1 0b010 rd := rfl
theorem encode_amoandW (rd : XReg) (rs2 : XReg) (rs1 : XReg) (aq : Bool) (rl : Bool) : encode (.amoandW rd rs2 rs1 aq rl) = encAmo 0b01100 aq rl rs2 rs1 0b010 rd := rfl
theorem encode_amominW (rd : XReg) (rs2 : XReg) (rs1 : XReg) (aq : Bool) (rl : Bool) : encode (.amominW rd rs2 rs1 aq rl) = encAmo 0b10000 aq rl rs2 rs1 0b010 rd := rfl
theorem encode_amomaxW (rd : XReg) (rs2 : XReg) (rs1 : XReg) (aq : Bool) (rl : Bool) : encode (.amomaxW rd rs2 rs1 aq rl) = encAmo 0b10100 aq rl rs2 rs1 0b010 rd := rfl
theorem encode_amominuW (rd : XReg) (rs2 : XReg) (rs1 : XReg) (aq : Bool) (rl : Bool) : encode (.amominuW rd rs2 rs1 aq rl) = encAmo 0b11000 aq rl rs2 rs1 0b010 rd := rfl
theorem encode_amomaxuW (rd : XReg) (rs2 : XReg) (rs1 : XReg) (aq : Bool) (rl : Bool) : encode (.amomaxuW rd rs2 rs1 aq rl) = encAmo 0b11100 aq rl rs2 rs1 0b010 rd := rfl
theorem encode_lrD (rd : XReg) (rs1 : XReg) (aq : Bool) (rl : Bool) : encode (.lrD rd rs1 aq rl) = encAmo 0b00010 aq rl 0 rs1 0b011 rd := rfl
theorem encode_scD (rd : XReg) (rs2 : XReg) (rs1 : XReg) (aq : Bool) (rl : Bool) : encode (.scD rd rs2 rs1 aq rl) = encAmo 0b00011 aq rl rs2 rs1 0b011 rd := rfl
theorem encode_amoswapD (rd : XReg) (rs2 : XReg) (rs1 : XReg) (aq : Bool) (rl : Bool) : encode (.amoswapD rd rs2 rs1 aq rl) = encAmo 0b00001 aq rl rs2 rs1 0b011 rd := rfl
theorem encode_amoaddD (rd : XReg) (rs2 : XReg) (rs1 : XReg) (aq : Bool) (rl : Bool) : encode (.amoaddD rd rs2 rs1 aq rl) = encAmo 0b00000 aq rl rs2 rs1 0b011 rd := rfl
theorem encode_amoxorD (rd : XReg) (rs2 : XReg) (rs1 : XReg) (aq : Bool) (rl : Bool) : encode (.amoxorD rd rs2 rs1 aq rl) = encAmo 0b00100 aq rl rs2 rs1 0b011 rd := rfl
theorem encode_amoorD (rd : XReg) (rs2 : XReg) (rs1 : XReg) (aq : Bool) (rl : Bool) : encode (.amoorD rd rs2 rs1 aq rl) = encAmo 0b01000 aq rl rs2 rs1 0b011 rd := rfl
theorem encode_amoandD (rd : XReg) (rs2 : XReg) (rs1 : XReg) (aq : Bool) (rl : Bool) : encode (.amoandD rd rs2 rs1 aq rl) = encAmo 0b01100 aq rl rs2 rs1 0b011 rd := rfl
theorem encode_amominD (rd : XReg) (rs2 : XReg) (rs1 : XReg) (aq : Bool) (rl : Bool) : encode (.amominD rd rs2 rs1 aq rl) = encAmo 0b10000 aq rl rs2 rs1 0b011 rd := rfl
theorem encode_amomaxD (rd : XReg) (rs2 : XReg) (rs1 : XReg) (aq : Bool) (rl : Bool) : encode (.amomaxD rd rs2 rs1 aq rl) = encAmo 0b10100 aq rl rs2 rs1 0b011 rd := rfl
theorem encode_amominuD (rd : XReg) (rs2 : XReg) (rs1 : XReg) (aq : Bool) (rl : Bool) : encode (.amominuD rd rs2 rs1 aq rl) = encAmo 0b11000 aq rl rs2 rs1 0b011 rd := rfl
theorem encode_amomaxuD (rd : XReg) (rs2 : XReg) (rs1 : XReg) (aq : Bool) (rl : Bool) : encode (.amomaxuD rd rs2 rs1 aq rl) = encAmo 0b11100 aq rl rs2 rs1 0b011 rd := rfl
theorem encode_flw (rd : FReg) (rs1 : XReg) (imm : BitVec 12) : encode (.flw rd rs1 imm) = encI imm rs1 0b010 rd 0b0000111 := rfl
theorem encode_fsw (rs2 : FReg) (rs1 : XReg) (imm : BitVec 12) : encode (.fsw rs2 rs1 imm) = encS imm rs2 rs1 0b010 0b0100111 := rfl
theorem encode_fmaddS (rd : FReg) (rs1 : FReg) (rs2 : FReg) (rs3 : FReg) (rm : Rm) : encode (.fmaddS rd rs1 rs2 rs3 rm) = encR4 rs3 0b00 rs2 rs1 rm rd 0b1000011 := rfl
theorem encode_fmsubS (rd : FReg) (rs1 : FReg) (rs2 : FReg) (rs3 : FReg) (rm : Rm) : encode (.fmsubS rd rs1 rs2 rs3 rm) = encR4 rs3 0b00 rs2 rs1 rm rd 0b1000111 := rfl
theorem encode_fnmsubS (rd : FReg) (rs1 : FReg) (rs2 : FReg) (rs3 : FReg) (rm : Rm) : encode (.fnmsubS rd rs1 rs2 rs3 rm) = encR4 rs3 0b00 rs2 rs1 rm rd 0b1001011 := rfl
theorem encode_fnmaddS (rd : FReg) (rs1 : FReg) (rs2 : FReg) (rs3 : FReg) (rm : Rm) : encode (.fnmaddS rd rs1 rs2 rs3 rm) = encR4 rs3 0b00 rs2 rs1 rm rd 0b1001111 := rfl
theorem encode_faddS (rd : FReg) (rs1 : FReg) (rs2 : FReg) (rm : Rm) : encode (.faddS rd rs1 rs2 rm) = encR 0b0000000 rs2 rs1 rm rd 0b1010011 := rfl
theorem encode_fsubS (rd : FReg) (rs1 : FReg) (rs2 : FReg) (rm : Rm) : encode (.fsubS rd rs1 rs2 rm) = encR 0b0000100 rs2 rs1 rm rd 0b1010011 := rfl
theorem encode_fmulS (rd : FReg) (rs1 : FReg) (rs2 : FReg) (rm : Rm) : encode (.fmulS rd rs1 rs2 rm) = encR 0b0001000 rs2 rs1 rm rd 0b1010011 := rfl
theorem encode_fdivS (rd : FReg) (rs1 : FReg) (rs2 : FReg) (rm : Rm) : encode (.fdivS rd rs1 rs2 rm) = encR 0b0001100 rs2 rs1 rm rd 0b1010011 := rfl
theorem encode_fsgnjS (rd : FReg) (rs1 : FReg) (rs2 : FReg) : encode (.fsgnjS rd rs1 rs2) = encR 0b0010000 rs2 rs1 0b000 rd 0b1010011 := rfl
theorem encode_fsgnjnS (rd : FReg) (rs1 : FReg) (rs2 : FReg) : encode (.fsgnjnS rd rs1 rs2) = encR 0b0010000 rs2 rs1 0b001 rd 0b1010011 := rfl
theorem encode_fsgnjxS (rd : FReg) (rs1 : FReg) (rs2 : FReg) : encode (.fsgnjxS rd rs1 rs2) = encR 0b0010000 rs2 rs1 0b010 rd 0b1010011 := rfl
theorem encode_fminS (rd : FReg) (rs1 : FReg) (rs2 : FReg) : encode (.fminS rd rs1 rs2) = encR 0b0010100 rs2 rs1 0b000 rd 0b1010011 := rfl
theorem encode_fmaxS (rd : FReg) (rs1 : FReg) (rs2 : FReg) : encode (.fmaxS rd rs1 rs2) = encR 0b0010100 rs2 rs1 0b001 rd 0b1010011 := rfl
theorem encode_fsqrtS (rd : FReg) (rs1 : FReg) (rm : Rm) : encode (.fsqrtS rd rs1 rm) = encR 0b0101100 0b00000 rs1 rm rd 0b1010011 := rfl
theorem encode_fleS (rd : XReg) (rs1 : FReg) (rs2 : FReg) : encode (.fleS rd rs1 rs2) = encR 0b1010000 rs2 rs1 0b000 rd 0b1010011 := rfl
theorem encode_fltS (rd : XReg) (rs1 : FReg) (rs2 : FReg) : encode (.fltS rd rs1 rs2) = encR 0b1010000 rs2 rs1 0b001 rd 0b1010011 := rfl
theorem encode_feqS (rd : XReg) (rs1 : FReg) (rs2 : FReg) : encode (.feqS rd rs1 rs2) = encR 0b1010000 rs2 rs1 0b010 rd 0b1010011 := rfl
theorem encode_fcvtWS (rd : XReg) (rs1 : FReg) (rm : Rm) : encode (.fcvtWS rd rs1 rm) = encR 0b1100000 0b00000 rs1 rm rd 0b1010011 := rfl
theorem encode_fcvtWuS (rd : XReg) (rs1 : FReg) (rm : Rm) : encode (.fcvtWuS rd rs1 rm) = encR 0b1100000 0b00001 rs1 rm rd 0b1010011 := rfl
theorem encode_fcvtSW (rd : FReg) (rs1 : XReg) (rm : Rm) : encode (.fcvtSW rd rs1 rm) = encR 0b1101000 0b00000 rs1 rm rd 0b1010011 := rfl
theorem encode_fcvtSWu (rd : FReg) (rs1 : XReg) (rm : Rm) : encode (.fcvtSWu rd rs1 rm) = encR 0b1101000 0b00001 rs1 rm rd 0b1010011 := rfl
theorem encode_fmvXS (rd : XReg) (rs1 : FReg) : encode (.fmvXS rd rs1) = encR 0b1110000 0b00000 rs1 0b000 rd 0b1010011 := rfl
theorem encode_fclassS (rd : XReg) (rs1 : FReg) : encode (.fclassS rd rs1) = encR 0b1110000 0b00000 rs1 0b001 rd 0b1010011 := rfl
theorem encode_fmvSX (rd : FReg) (rs1 : XReg) : encode (.fmvSX rd rs1) = encR 0b1111000 0b00000 rs1 0b000 rd 0b1010011 := rfl
theorem encode_fcvtLS (rd : XReg) (rs1 : FReg) (rm : Rm) : encode (.fcvtLS rd rs1 rm) = encR 0b1100000 0b00010 rs1 rm rd 0b1010011 := rfl
theorem encode_fcvtLuS (rd : XReg) (rs1 : FReg) (rm : Rm) : encode (.fcvtLuS rd rs1 rm) = encR 0b1100000 0b00011 rs1 rm rd 0b1010011 := rfl
theorem encode_fcvtSL (rd : FReg) (rs1 : XReg) (rm : Rm) : encode (.fcvtSL rd rs1 rm) = encR 0b1101000 0b00010 rs1 rm rd 0b1010011 := rfl
theorem encode_fcvtSLu (rd : FReg) (rs1 : XReg) (rm : Rm) : encode (.fcvtSLu rd rs1 rm) = encR 0b1101000 0b00011 rs1 rm rd 0b1010011 := rfl
theorem encode_fld (rd : FReg) (rs1 : XReg) (imm : BitVec 12) : encode (.fld rd rs1 imm) = encI imm rs1 0b011 rd 0b0000111 := rfl
theorem encode_fsd (rs2 : FReg) (rs1 : XReg) (imm : BitVec 12) : encode (.fsd rs2 rs1 imm) = encS imm rs2 rs1 0b011 0b0100111 := rfl
theorem encode_fmaddD (rd : FReg) (rs1 : FReg) (rs2 : FReg) (rs3 : FReg) (rm : Rm) : encode (.fmaddD rd rs1 rs2 rs3 rm) = encR4 rs3 0b01 rs2 rs1 rm rd 0b1000011 := rfl
theorem encode_fmsubD (rd : FReg) (rs1 : FReg) (rs2 : FReg) (rs3 : FReg) (rm : Rm) : encode (.fmsubD rd rs1 rs2 rs3 rm) = encR4 rs3 0b01 rs2 rs1 rm rd 0b1000111 := rfl
theorem encode_fnmsubD (rd : FReg) (rs1 : FReg) (rs2 : FReg) (rs3 : FReg) (rm : Rm) : encode (.fnmsubD rd rs1 rs2 rs3 rm) = encR4 rs3 0b01 rs2 rs1 rm rd 0b1001011 := rfl
theorem encode_fnmaddD (rd : FReg) (rs1 : FReg) (rs2 : FReg) (rs3 : FReg) (rm : Rm) : encode (.fnmaddD rd rs1 rs2 rs3 rm) = encR4 rs3 0b01 rs2 rs1 rm rd 0b1001111 := rfl
theorem encode_faddD (rd : FReg) (rs1 : FReg) (rs2 : FReg) (rm : Rm) : encode (.faddD rd rs1 rs2 rm) = encR 0b0000001 rs2 rs1 rm rd 0b1010011 := rfl
theorem encode_fsubD (rd : FReg) (rs1 : FReg) (rs2 : FReg) (rm : Rm) : encode (.fsubD rd rs1 rs2 rm) = encR 0b0000101 rs2 rs1 rm rd 0b1010011 := rfl
theorem encode_fmulD (rd : FReg) (rs1 : FReg) (rs2 : FReg) (rm : Rm) : encode (.fmulD rd rs1 rs2 rm) = encR 0b0001001 rs2 rs1 rm rd 0b1010011 := rfl
theorem encode_fdivD (rd : FReg) (rs1 : FReg) (rs2 : FReg) (rm : Rm) : encode (.fdivD rd rs1 rs2 rm) = encR 0b0001101 rs2 rs1 rm rd 0b1010011 := rfl
theorem encode_fsgnjD (rd : FReg) (rs1 : FReg) (rs2 : FReg) : encode (.fsgnjD rd rs1 rs2) = encR 0b0010001 rs2 rs1 0b000 rd 0b1010011 := rfl
theorem encode_fsgnjnD (rd : FReg) (rs1 : FReg) (rs2 : FReg) : encode (.fsgnjnD rd rs1 rs2) = encR 0b0010001 rs2 rs1 0b001 rd 0b1010011 := rfl
theorem encode_fsgnjxD (rd : FReg) (rs1 : FReg) (rs2 : FReg) : encode (.fsgnjxD rd rs1 rs2) = encR 0b0010001 rs2 rs1 0b010 rd 0b1010011 := rfl
theorem encode_fminD (rd : FReg) (rs1 : FReg) (rs2 : FReg) : encode (.fminD rd rs1 rs2) = encR 0b0010101 rs2 rs1 0b000 rd 0b1010011 := rfl
theorem encode_fmaxD (rd : FReg) (rs1 : FReg) (rs2 : FReg) : encode (.fmaxD rd rs1 rs2) = encR 0b0010101 rs2 rs1 0b001 rd 0b1010011 := rfl
theorem encode_fsqrtD (rd : FReg) (rs1 : FReg) (rm : Rm) : encode (.fsqrtD rd rs1 rm) = encR 0b0101101 0b00000 rs1 rm rd 0b1010011 := rfl
theorem encode_fleD (rd : XReg) (rs1 : FReg) (rs2 : FReg) : encode (.fleD rd rs1 rs2) = encR 0b1010001 rs2 rs1 0b000 rd 0b1010011 := rfl
theorem encode_fltD (rd : XReg) (rs1 : FReg) (rs2 : FReg) : encode (.fltD rd rs1 rs2) = encR 0b1010001 rs2 rs1 0b001 rd 0b1010011 := rfl
theorem encode_feqD (rd : XReg) (rs1 : FReg) (rs2 : FReg) : encode (.feqD rd rs1 rs2) = encR 0b1010001 rs2 rs1 0b010 rd 0b1010011 := rfl
theorem encode_fcvtWD (rd : XReg) (rs1 : FReg) (rm : Rm) : encode (.fcvtWD rd rs1 rm) = encR 0b1100001 0b00000 rs1 rm rd 0b1010011 := rfl
theorem encode_fcvtWuD (rd : XReg) (rs1 : FReg) (rm : Rm) : encode (.fcvtWuD rd rs1 rm) = encR 0b1100001 0b00001 rs1 rm rd 0b1010011 := rfl
theorem encode_fcvtDW (rd : FReg) (rs1 : XReg) (rm : Rm) : encode (.fcvtDW rd rs1 rm) = encR 0b1101001 0b00000 rs1 rm rd 0b1010011 := rfl
theorem encode_fcvtDWu (rd : FReg) (rs1 : XReg) (rm : Rm) : encode (.fcvtDWu rd rs1 rm) = encR 0b1101001 0b00001 rs1 rm rd 0b1010011 := rfl
theorem encode_fclassD (rd : XReg) (rs1 : FReg) : encode (.fclassD rd rs1) = encR 0b1110001 0b00000 rs1 0b001 rd 0b1010011 := rfl
theorem encode_fcvtLD (rd : XReg) (rs1 : FReg) (rm : Rm) : encode (.fcvtLD rd rs1 rm) = encR 0b1100001 0b00010 rs1 rm rd 0b1010011 := rfl
theorem encode_fcvtLuD (rd : XReg) (rs1 : FReg) (rm : Rm) : encode (.fcvtLuD rd rs1 rm) = encR 0b1100001 0b00011 rs1 rm rd 0b1010011 := rfl
theorem encode_fcvtDL (rd : FReg) (rs1 : XReg) (rm : Rm) : encode (.fcvtDL rd rs1 rm) = encR 0b1101001 0b00010 rs1 rm rd 0b1010011 := rfl
theorem encode_fcvtDLu (rd : FReg) (rs1 : XReg) (rm : Rm) : encode (.fcvtDLu rd rs1 rm) = encR 0b1101001 0b00011 rs1 rm rd 0b1010011 := rfl
theorem encode_fmvXD (rd : XReg) (rs1 : FReg) : encode (.fmvXD rd rs1) = encR 0b1110001 0b00000 rs1 0b000 rd 0b1010011 := rfl
theorem encode_fmvDX (rd : FReg) (rs1 : XReg) : encode (.fmvDX rd rs1) = encR 0b1111001 0b00000 rs1 0b000 rd 0b1010011 := rfl

theorem EncodeMatches.lui (rd : XReg) (imm : BitVec 20) : EncodeMatches.Statement (.lui rd imm) := fun _ =>
  ⟨_, List.mem_of_getElem? (i := 0) rfl, rfl, (encU_mask _ _ _).trans rfl, by simp only [encode_lui, fieldRd_encU, immU_encU]⟩

theorem EncodeMatches.auipc (rd : XReg) (imm : BitVec 20) : EncodeMatches.Statement (.auipc rd imm) := fun _ =>
  ⟨_, List.mem_of_getElem? (i := 1) rfl, rfl, (encU_mask _ _ _).trans rfl, by simp only [encode_auipc, fieldRd_encU, immU_encU]⟩

theorem EncodeMatches.jal (rd : XReg) (off : BitVec 21) : EncodeMatches.Statement (.jal rd off) := fun h =>
  ⟨_, List.mem_of_getElem? (i := 2) rfl, rfl, (encJ_mask _ _ _).trans rfl, by
    have h : off.getLsbD 0 = false := by simpa [Instr.offsetEven] using h
    simp only [encode_jal, fieldRd_encJ, immJ_encJ _ _ _ h]⟩

theorem EncodeMatches.jalr (rd : XReg) (rs1 : XReg) (imm : BitVec 12) : EncodeMatches.Statement (.jalr rd rs1 imm) := fun _ =>
  ⟨_, List.mem_of_getElem? (i := 3) rfl, rfl, (encI_mask _ _ _ _ _).trans rfl, by simp only [encode_jalr, fieldRd_encI, fieldRs1_encI, immI_encI]⟩

theorem EncodeMatches.beq (rs1 : XReg) (rs2 : XReg) (off : BitVec 13) : EncodeMatches.Statement (.beq rs1 rs2 off) := fun h =>
  ⟨_, List.mem_of_getElem? (i := 4) rfl, rfl, (encB_mask _ _ _ _ _).trans rfl, by
    have h : off.getLsbD 0 = false := by simpa [Instr.offsetEven] using h
    simp only [encode_beq, fieldRs1_encB, fieldRs2_encB, immB_encB _ _ _ _ _ h]⟩

theorem EncodeMatches.bne (rs1 : XReg) (rs2 : XReg) (off : BitVec 13) : EncodeMatches.Statement (.bne rs1 rs2 off) := fun h =>
  ⟨_, List.mem_of_getElem? (i := 5) rfl, rfl, (encB_mask _ _ _ _ _).trans rfl, by
    have h : off.getLsbD 0 = false := by simpa [Instr.offsetEven] using h
    simp only [encode_bne, fieldRs1_encB, fieldRs2_encB, immB_encB _ _ _ _ _ h]⟩

theorem EncodeMatches.blt (rs1 : XReg) (rs2 : XReg) (off : BitVec 13) : EncodeMatches.Statement (.blt rs1 rs2 off) := fun h =>
  ⟨_, List.mem_of_getElem? (i := 6) rfl, rfl, (encB_mask _ _ _ _ _).trans rfl, by
    have h : off.getLsbD 0 = false := by simpa [Instr.offsetEven] using h
    simp only [encode_blt, fieldRs1_encB, fieldRs2_encB, immB_encB _ _ _ _ _ h]⟩

theorem EncodeMatches.bge (rs1 : XReg) (rs2 : XReg) (off : BitVec 13) : EncodeMatches.Statement (.bge rs1 rs2 off) := fun h =>
  ⟨_, List.mem_of_getElem? (i := 7) rfl, rfl, (encB_mask _ _ _ _ _).trans rfl, by
    have h : off.getLsbD 0 = false := by simpa [Instr.offsetEven] using h
    simp only [encode_bge, fieldRs1_encB, fieldRs2_encB, immB_encB _ _ _ _ _ h]⟩

theorem EncodeMatches.bltu (rs1 : XReg) (rs2 : XReg) (off : BitVec 13) : EncodeMatches.Statement (.bltu rs1 rs2 off) := fun h =>
  ⟨_, List.mem_of_getElem? (i := 8) rfl, rfl, (encB_mask _ _ _ _ _).trans rfl, by
    have h : off.getLsbD 0 = false := by simpa [Instr.offsetEven] using h
    simp only [encode_bltu, fieldRs1_encB, fieldRs2_encB, immB_encB _ _ _ _ _ h]⟩

theorem EncodeMatches.bgeu (rs1 : XReg) (rs2 : XReg) (off : BitVec 13) : EncodeMatches.Statement (.bgeu rs1 rs2 off) := fun h =>
  ⟨_, List.mem_of_getElem? (i := 9) rfl, rfl, (encB_mask _ _ _ _ _).trans rfl, by
    have h : off.getLsbD 0 = false := by simpa [Instr.offsetEven] using h
    simp only [encode_bgeu, fieldRs1_encB, fieldRs2_encB, immB_encB _ _ _ _ _ h]⟩

theorem EncodeMatches.lb (rd : XReg) (rs1 : XReg) (imm : BitVec 12) : EncodeMatches.Statement (.lb rd rs1 imm) := fun _ =>
  ⟨_, List.mem_of_getElem? (i := 10) rfl, rfl, (encI_mask _ _ _ _ _).trans rfl, by simp only [encode_lb, fieldRd_encI, fieldRs1_encI, immI_encI]⟩

theorem EncodeMatches.lh (rd : XReg) (rs1 : XReg) (imm : BitVec 12) : EncodeMatches.Statement (.lh rd rs1 imm) := fun _ =>
  ⟨_, List.mem_of_getElem? (i := 11) rfl, rfl, (encI_mask _ _ _ _ _).trans rfl, by simp only [encode_lh, fieldRd_encI, fieldRs1_encI, immI_encI]⟩

theorem EncodeMatches.lw (rd : XReg) (rs1 : XReg) (imm : BitVec 12) : EncodeMatches.Statement (.lw rd rs1 imm) := fun _ =>
  ⟨_, List.mem_of_getElem? (i := 12) rfl, rfl, (encI_mask _ _ _ _ _).trans rfl, by simp only [encode_lw, fieldRd_encI, fieldRs1_encI, immI_encI]⟩

theorem EncodeMatches.lbu (rd : XReg) (rs1 : XReg) (imm : BitVec 12) : EncodeMatches.Statement (.lbu rd rs1 imm) := fun _ =>
  ⟨_, List.mem_of_getElem? (i := 13) rfl, rfl, (encI_mask _ _ _ _ _).trans rfl, by simp only [encode_lbu, fieldRd_encI, fieldRs1_encI, immI_encI]⟩

theorem EncodeMatches.lhu (rd : XReg) (rs1 : XReg) (imm : BitVec 12) : EncodeMatches.Statement (.lhu rd rs1 imm) := fun _ =>
  ⟨_, List.mem_of_getElem? (i := 14) rfl, rfl, (encI_mask _ _ _ _ _).trans rfl, by simp only [encode_lhu, fieldRd_encI, fieldRs1_encI, immI_encI]⟩

theorem EncodeMatches.sb (rs2 : XReg) (rs1 : XReg) (imm : BitVec 12) : EncodeMatches.Statement (.sb rs2 rs1 imm) := fun _ =>
  ⟨_, List.mem_of_getElem? (i := 15) rfl, rfl, (encS_mask _ _ _ _ _).trans rfl, by simp only [encode_sb, fieldRs2_encS, fieldRs1_encS, immS_encS]⟩

theorem EncodeMatches.sh (rs2 : XReg) (rs1 : XReg) (imm : BitVec 12) : EncodeMatches.Statement (.sh rs2 rs1 imm) := fun _ =>
  ⟨_, List.mem_of_getElem? (i := 16) rfl, rfl, (encS_mask _ _ _ _ _).trans rfl, by simp only [encode_sh, fieldRs2_encS, fieldRs1_encS, immS_encS]⟩

theorem EncodeMatches.sw (rs2 : XReg) (rs1 : XReg) (imm : BitVec 12) : EncodeMatches.Statement (.sw rs2 rs1 imm) := fun _ =>
  ⟨_, List.mem_of_getElem? (i := 17) rfl, rfl, (encS_mask _ _ _ _ _).trans rfl, by simp only [encode_sw, fieldRs2_encS, fieldRs1_encS, immS_encS]⟩

theorem EncodeMatches.addi (rd : XReg) (rs1 : XReg) (imm : BitVec 12) : EncodeMatches.Statement (.addi rd rs1 imm) := fun _ =>
  ⟨_, List.mem_of_getElem? (i := 18) rfl, rfl, (encI_mask _ _ _ _ _).trans rfl, by simp only [encode_addi, fieldRd_encI, fieldRs1_encI, immI_encI]⟩

theorem EncodeMatches.slti (rd : XReg) (rs1 : XReg) (imm : BitVec 12) : EncodeMatches.Statement (.slti rd rs1 imm) := fun _ =>
  ⟨_, List.mem_of_getElem? (i := 19) rfl, rfl, (encI_mask _ _ _ _ _).trans rfl, by simp only [encode_slti, fieldRd_encI, fieldRs1_encI, immI_encI]⟩

theorem EncodeMatches.sltiu (rd : XReg) (rs1 : XReg) (imm : BitVec 12) : EncodeMatches.Statement (.sltiu rd rs1 imm) := fun _ =>
  ⟨_, List.mem_of_getElem? (i := 20) rfl, rfl, (encI_mask _ _ _ _ _).trans rfl, by simp only [encode_sltiu, fieldRd_encI, fieldRs1_encI, immI_encI]⟩

theorem EncodeMatches.xori (rd : XReg) (rs1 : XReg) (imm : BitVec 12) : EncodeMatches.Statement (.xori rd rs1 imm) := fun _ =>
  ⟨_, List.mem_of_getElem? (i := 21) rfl, rfl, (encI_mask _ _ _ _ _).trans rfl, by simp only [encode_xori, fieldRd_encI, fieldRs1_encI, immI_encI]⟩

theorem EncodeMatches.ori (rd : XReg) (rs1 : XReg) (imm : BitVec 12) : EncodeMatches.Statement (.ori rd rs1 imm) := fun _ =>
  ⟨_, List.mem_of_getElem? (i := 22) rfl, rfl, (encI_mask _ _ _ _ _).trans rfl, by simp only [encode_ori, fieldRd_encI, fieldRs1_encI, immI_encI]⟩

theorem EncodeMatches.andi (rd : XReg) (rs1 : XReg) (imm : BitVec 12) : EncodeMatches.Statement (.andi rd rs1 imm) := fun _ =>
  ⟨_, List.mem_of_getElem? (i := 23) rfl, rfl, (encI_mask _ _ _ _ _).trans rfl, by simp only [encode_andi, fieldRd_encI, fieldRs1_encI, immI_encI]⟩

theorem EncodeMatches.slli32 (rd : XReg) (rs1 : XReg) (shamt : BitVec 5) : EncodeMatches.Statement (.slli32 rd rs1 shamt) := fun _ =>
  ⟨_, List.mem_of_getElem? (i := 24) rfl, rfl, (encShift5_mask _ _ _ _ _ _).trans rfl, by simp only [encode_slli32, fieldRd_encShift5, fieldRs1_encShift5, shamt5_encShift5]⟩

theorem EncodeMatches.srli32 (rd : XReg) (rs1 : XReg) (shamt : BitVec 5) : EncodeMatches.Statement (.srli32 rd rs1 shamt) := fun _ =>
  ⟨_, List.mem_of_getElem? (i := 25) rfl, rfl, (encShift5_mask _ _ _ _ _ _).trans rfl, by simp only [encode_srli32, fieldRd_encShift5, fieldRs1_encShift5, shamt5_encShift5]⟩

theorem EncodeMatches.srai32 (rd : XReg) (rs1 : XReg) (shamt : BitVec 5) : EncodeMatches.Statement (.srai32 rd rs1 shamt) := fun _ =>
  ⟨_, List.mem_of_getElem? (i := 26) rfl, rfl, (encShift5_mask _ _ _ _ _ _).trans rfl, by simp only [encode_srai32, fieldRd_encShift5, fieldRs1_encShift5, shamt5_encShift5]⟩

theorem EncodeMatches.add (rd : XReg) (rs1 : XReg) (rs2 : XReg) : EncodeMatches.Statement (.add rd rs1 rs2) := fun _ =>
  ⟨_, List.mem_of_getElem? (i := 27) rfl, rfl, (encR_maskFunct _ _ _ _ _ _).trans rfl, by simp only [encode_add, fieldRd_encR, fieldRs1_encR, fieldRs2_encR]⟩

theorem EncodeMatches.sub (rd : XReg) (rs1 : XReg) (rs2 : XReg) : EncodeMatches.Statement (.sub rd rs1 rs2) := fun _ =>
  ⟨_, List.mem_of_getElem? (i := 28) rfl, rfl, (encR_maskFunct _ _ _ _ _ _).trans rfl, by simp only [encode_sub, fieldRd_encR, fieldRs1_encR, fieldRs2_encR]⟩

theorem EncodeMatches.sll (rd : XReg) (rs1 : XReg) (rs2 : XReg) : EncodeMatches.Statement (.sll rd rs1 rs2) := fun _ =>
  ⟨_, List.mem_of_getElem? (i := 29) rfl, rfl, (encR_maskFunct _ _ _ _ _ _).trans rfl, by simp only [encode_sll, fieldRd_encR, fieldRs1_encR, fieldRs2_encR]⟩

theorem EncodeMatches.slt (rd : XReg) (rs1 : XReg) (rs2 : XReg) : EncodeMatches.Statement (.slt rd rs1 rs2) := fun _ =>
  ⟨_, List.mem_of_getElem? (i := 30) rfl, rfl, (encR_maskFunct _ _ _ _ _ _).trans rfl, by simp only [encode_slt, fieldRd_encR, fieldRs1_encR, fieldRs2_encR]⟩

theorem EncodeMatches.sltu (rd : XReg) (rs1 : XReg) (rs2 : XReg) : EncodeMatches.Statement (.sltu rd rs1 rs2) := fun _ =>
  ⟨_, List.mem_of_getElem? (i := 31) rfl, rfl, (encR_maskFunct _ _ _ _ _ _).trans rfl, by simp only [encode_sltu, fieldRd_encR, fieldRs1_encR, fieldRs2_encR]⟩

theorem EncodeMatches.xor (rd : XReg) (rs1 : XReg) (rs2 : XReg) : EncodeMatches.Statement (.xor rd rs1 rs2) := fun _ =>
  ⟨_, List.mem_of_getElem? (i := 32) rfl, rfl, (encR_maskFunct _ _ _ _ _ _).trans rfl, by simp only [encode_xor, fieldRd_encR, fieldRs1_encR, fieldRs2_encR]⟩

theorem EncodeMatches.srl (rd : XReg) (rs1 : XReg) (rs2 : XReg) : EncodeMatches.Statement (.srl rd rs1 rs2) := fun _ =>
  ⟨_, List.mem_of_getElem? (i := 33) rfl, rfl, (encR_maskFunct _ _ _ _ _ _).trans rfl, by simp only [encode_srl, fieldRd_encR, fieldRs1_encR, fieldRs2_encR]⟩

theorem EncodeMatches.sra (rd : XReg) (rs1 : XReg) (rs2 : XReg) : EncodeMatches.Statement (.sra rd rs1 rs2) := fun _ =>
  ⟨_, List.mem_of_getElem? (i := 34) rfl, rfl, (encR_maskFunct _ _ _ _ _ _).trans rfl, by simp only [encode_sra, fieldRd_encR, fieldRs1_encR, fieldRs2_encR]⟩

theorem EncodeMatches.or (rd : XReg) (rs1 : XReg) (rs2 : XReg) : EncodeMatches.Statement (.or rd rs1 rs2) := fun _ =>
  ⟨_, List.mem_of_getElem? (i := 35) rfl, rfl, (encR_maskFunct _ _ _ _ _ _).trans rfl, by simp only [encode_or, fieldRd_encR, fieldRs1_encR, fieldRs2_encR]⟩

theorem EncodeMatches.and (rd : XReg) (rs1 : XReg) (rs2 : XReg) : EncodeMatches.Statement (.and rd rs1 rs2) := fun _ =>
  ⟨_, List.mem_of_getElem? (i := 36) rfl, rfl, (encR_maskFunct _ _ _ _ _ _).trans rfl, by simp only [encode_and, fieldRd_encR, fieldRs1_encR, fieldRs2_encR]⟩

theorem EncodeMatches.fence (pred : BitVec 4) (succ : BitVec 4) : EncodeMatches.Statement (.fence pred succ) := fun _ =>
  ⟨_, List.mem_of_getElem? (i := 37) rfl, rfl, (encFence_mask _ _ _).trans rfl, by simp only [encode_fence, fieldPred_encFence, fieldSucc_encFence]⟩

theorem EncodeMatches.fenceI : EncodeMatches.Statement (.fenceI) := fun _ =>
  ⟨_, List.mem_of_getElem? (i := 38) rfl, rfl, rfl, rfl⟩

theorem EncodeMatches.lwu (rd : XReg) (rs1 : XReg) (imm : BitVec 12) : EncodeMatches.Statement (.lwu rd rs1 imm) := fun _ =>
  ⟨_, List.mem_of_getElem? (i := 39) rfl, rfl, (encI_mask _ _ _ _ _).trans rfl, by simp only [encode_lwu, fieldRd_encI, fieldRs1_encI, immI_encI]⟩

theorem EncodeMatches.ld (rd : XReg) (rs1 : XReg) (imm : BitVec 12) : EncodeMatches.Statement (.ld rd rs1 imm) := fun _ =>
  ⟨_, List.mem_of_getElem? (i := 40) rfl, rfl, (encI_mask _ _ _ _ _).trans rfl, by simp only [encode_ld, fieldRd_encI, fieldRs1_encI, immI_encI]⟩

theorem EncodeMatches.sd (rs2 : XReg) (rs1 : XReg) (imm : BitVec 12) : EncodeMatches.Statement (.sd rs2 rs1 imm) := fun _ =>
  ⟨_, List.mem_of_getElem? (i := 41) rfl, rfl, (encS_mask _ _ _ _ _).trans rfl, by simp only [encode_sd, fieldRs2_encS, fieldRs1_encS, immS_encS]⟩

theorem EncodeMatches.slli64 (rd : XReg) (rs1 : XReg) (shamt : BitVec 6) : EncodeMatches.Statement (.slli64 rd rs1 shamt) := fun _ =>
  ⟨_, List.mem_of_getElem? (i := 42) rfl, rfl, (encShift6_mask _ _ _ _ _ _).trans rfl, by simp only [encode_slli64, fieldRd_encShift6, fieldRs1_encShift6, shamt6_encShift6]⟩

theorem EncodeMatches.srli64 (rd : XReg) (rs1 : XReg) (shamt : BitVec 6) : EncodeMatches.Statement (.srli64 rd rs1 shamt) := fun _ =>
  ⟨_, List.mem_of_getElem? (i := 43) rfl, rfl, (encShift6_mask _ _ _ _ _ _).trans rfl, by simp only [encode_srli64, fieldRd_encShift6, fieldRs1_encShift6, shamt6_encShift6]⟩

theorem EncodeMatches.srai64 (rd : XReg) (rs1 : XReg) (shamt : BitVec 6) : EncodeMatches.Statement (.srai64 rd rs1 shamt) := fun _ =>
  ⟨_, List.mem_of_getElem? (i := 44) rfl, rfl, (encShift6_mask _ _ _ _ _ _).trans rfl, by simp only [encode_srai64, fieldRd_encShift6, fieldRs1_encShift6, shamt6_encShift6]⟩

theorem EncodeMatches.addiw (rd : XReg) (rs1 : XReg) (imm : BitVec 12) : EncodeMatches.Statement (.addiw rd rs1 imm) := fun _ =>
  ⟨_, List.mem_of_getElem? (i := 45) rfl, rfl, (encI_mask _ _ _ _ _).trans rfl, by simp only [encode_addiw, fieldRd_encI, fieldRs1_encI, immI_encI]⟩

theorem EncodeMatches.slliw (rd : XReg) (rs1 : XReg) (shamt : BitVec 5) : EncodeMatches.Statement (.slliw rd rs1 shamt) := fun _ =>
  ⟨_, List.mem_of_getElem? (i := 46) rfl, rfl, (encShift5_mask _ _ _ _ _ _).trans rfl, by simp only [encode_slliw, fieldRd_encShift5, fieldRs1_encShift5, shamt5_encShift5]⟩

theorem EncodeMatches.srliw (rd : XReg) (rs1 : XReg) (shamt : BitVec 5) : EncodeMatches.Statement (.srliw rd rs1 shamt) := fun _ =>
  ⟨_, List.mem_of_getElem? (i := 47) rfl, rfl, (encShift5_mask _ _ _ _ _ _).trans rfl, by simp only [encode_srliw, fieldRd_encShift5, fieldRs1_encShift5, shamt5_encShift5]⟩

theorem EncodeMatches.sraiw (rd : XReg) (rs1 : XReg) (shamt : BitVec 5) : EncodeMatches.Statement (.sraiw rd rs1 shamt) := fun _ =>
  ⟨_, List.mem_of_getElem? (i := 48) rfl, rfl, (encShift5_mask _ _ _ _ _ _).trans rfl, by simp only [encode_sraiw, fieldRd_encShift5, fieldRs1_encShift5, shamt5_encShift5]⟩

theorem EncodeMatches.addw (rd : XReg) (rs1 : XReg) (rs2 : XReg) : EncodeMatches.Statement (.addw rd rs1 rs2) := fun _ =>
  ⟨_, List.mem_of_getElem? (i := 49) rfl, rfl, (encR_maskFunct _ _ _ _ _ _).trans rfl, by simp only [encode_addw, fieldRd_encR, fieldRs1_encR, fieldRs2_encR]⟩

theorem EncodeMatches.subw (rd : XReg) (rs1 : XReg) (rs2 : XReg) : EncodeMatches.Statement (.subw rd rs1 rs2) := fun _ =>
  ⟨_, List.mem_of_getElem? (i := 50) rfl, rfl, (encR_maskFunct _ _ _ _ _ _).trans rfl, by simp only [encode_subw, fieldRd_encR, fieldRs1_encR, fieldRs2_encR]⟩

theorem EncodeMatches.sllw (rd : XReg) (rs1 : XReg) (rs2 : XReg) : EncodeMatches.Statement (.sllw rd rs1 rs2) := fun _ =>
  ⟨_, List.mem_of_getElem? (i := 51) rfl, rfl, (encR_maskFunct _ _ _ _ _ _).trans rfl, by simp only [encode_sllw, fieldRd_encR, fieldRs1_encR, fieldRs2_encR]⟩

theorem EncodeMatches.srlw (rd : XReg) (rs1 : XReg) (rs2 : XReg) : EncodeMatches.Statement (.srlw rd rs1 rs2) := fun _ =>
  ⟨_, List.mem_of_getElem? (i := 52) rfl, rfl, (encR_maskFunct _ _ _ _ _ _).trans rfl, by simp only [encode_srlw, fieldRd_encR, fieldRs1_encR, fieldRs2_encR]⟩

theorem EncodeMatches.sraw (rd : XReg) (rs1 : XReg) (rs2 : XReg) : EncodeMatches.Statement (.sraw rd rs1 rs2) := fun _ =>
  ⟨_, List.mem_of_getElem? (i := 53) rfl, rfl, (encR_maskFunct _ _ _ _ _ _).trans rfl, by simp only [encode_sraw, fieldRd_encR, fieldRs1_encR, fieldRs2_encR]⟩

theorem EncodeMatches.mul (rd : XReg) (rs1 : XReg) (rs2 : XReg) : EncodeMatches.Statement (.mul rd rs1 rs2) := fun _ =>
  ⟨_, List.mem_of_getElem? (i := 54) rfl, rfl, (encR_maskFunct _ _ _ _ _ _).trans rfl, by simp only [encode_mul, fieldRd_encR, fieldRs1_encR, fieldRs2_encR]⟩

theorem EncodeMatches.mulh (rd : XReg) (rs1 : XReg) (rs2 : XReg) : EncodeMatches.Statement (.mulh rd rs1 rs2) := fun _ =>
  ⟨_, List.mem_of_getElem? (i := 55) rfl, rfl, (encR_maskFunct _ _ _ _ _ _).trans rfl, by simp only [encode_mulh, fieldRd_encR, fieldRs1_encR, fieldRs2_encR]⟩

theorem EncodeMatches.mulhsu (rd : XReg) (rs1 : XReg) (rs2 : XReg) : EncodeMatches.Statement (.mulhsu rd rs1 rs2) := fun _ =>
  ⟨_, List.mem_of_getElem? (i := 56) rfl, rfl, (encR_maskFunct _ _ _ _ _ _).trans rfl, by simp only [encode_mulhsu, fieldRd_encR, fieldRs1_encR, fieldRs2_encR]⟩

theorem EncodeMatches.mulhu (rd : XReg) (rs1 : XReg) (rs2 : XReg) : EncodeMatches.Statement (.mulhu rd rs1 rs2) := fun _ =>
  ⟨_, List.mem_of_getElem? (i := 57) rfl, rfl, (encR_maskFunct _ _ _ _ _ _).trans rfl, by simp only [encode_mulhu, fieldRd_encR, fieldRs1_encR, fieldRs2_encR]⟩

theorem EncodeMatches.div (rd : XReg) (rs1 : XReg) (rs2 : XReg) : EncodeMatches.Statement (.div rd rs1 rs2) := fun _ =>
  ⟨_, List.mem_of_getElem? (i := 58) rfl, rfl, (encR_maskFunct _ _ _ _ _ _).trans rfl, by simp only [encode_div, fieldRd_encR, fieldRs1_encR, fieldRs2_encR]⟩

theorem EncodeMatches.divu (rd : XReg) (rs1 : XReg) (rs2 : XReg) : EncodeMatches.Statement (.divu rd rs1 rs2) := fun _ =>
  ⟨_, List.mem_of_getElem? (i := 59) rfl, rfl, (encR_maskFunct _ _ _ _ _ _).trans rfl, by simp only [encode_divu, fieldRd_encR, fieldRs1_encR, fieldRs2_encR]⟩

theorem EncodeMatches.rem (rd : XReg) (rs1 : XReg) (rs2 : XReg) : EncodeMatches.Statement (.rem rd rs1 rs2) := fun _ =>
  ⟨_, List.mem_of_getElem? (i := 60) rfl, rfl, (encR_maskFunct _ _ _ _ _ _).trans rfl, by simp only [encode_rem, fieldRd_encR, fieldRs1_encR, fieldRs2_encR]⟩

theorem EncodeMatches.remu (rd : XReg) (rs1 : XReg) (rs2 : XReg) : EncodeMatches.Statement (.remu rd rs1 rs2) := fun _ =>
  ⟨_, List.mem_of_getElem? (i := 61) rfl, rfl, (encR_maskFunct _ _ _ _ _ _).trans rfl, by simp only [encode_remu, fieldRd_encR, fieldRs1_encR, fieldRs2_encR]⟩

theorem EncodeMatches.mulw (rd : XReg) (rs1 : XReg) (rs2 : XReg) : EncodeMatches.Statement (.mulw rd rs1 rs2) := fun _ =>
  ⟨_, List.mem_of_getElem? (i := 62) rfl, rfl, (encR_maskFunct _ _ _ _ _ _).trans rfl, by simp only [encode_mulw, fieldRd_encR, fieldRs1_encR, fieldRs2_encR]⟩

theorem EncodeMatches.divw (rd : XReg) (rs1 : XReg) (rs2 : XReg) : EncodeMatches.Statement (.divw rd rs1 rs2) := fun _ =>
  ⟨_, List.mem_of_getElem? (i := 63) rfl, rfl, (encR_maskFunct _ _ _ _ _ _).trans rfl, by simp only [encode_divw, fieldRd_encR, fieldRs1_encR, fieldRs2_encR]⟩

theorem EncodeMatches.divuw (rd : XReg) (rs1 : XReg) (rs2 : XReg) : EncodeMatches.Statement (.divuw rd rs1 rs2) := fun _ =>
  ⟨_, List.mem_of_getElem? (i := 64) rfl, rfl, (encR_maskFunct _ _ _ _ _ _).trans rfl, by simp only [encode_divuw, fieldRd_encR, fieldRs1_encR, fieldRs2_encR]⟩

theorem EncodeMatches.remw (rd : XReg) (rs1 : XReg) (rs2 : XReg) : EncodeMatches.Statement (.remw rd rs1 rs2) := fun _ =>
  ⟨_, List.mem_of_getElem? (i := 65) rfl, rfl, (encR_maskFunct _ _ _ _ _ _).trans rfl, by simp only [encode_remw, fieldRd_encR, fieldRs1_encR, fieldRs2_encR]⟩

theorem EncodeMatches.remuw (rd : XReg) (rs1 : XReg) (rs2 : XReg) : EncodeMatches.Statement (.remuw rd rs1 rs2) := fun _ =>
  ⟨_, List.mem_of_getElem? (i := 66) rfl, rfl, (encR_maskFunct _ _ _ _ _ _).trans rfl, by simp only [encode_remuw, fieldRd_encR, fieldRs1_encR, fieldRs2_encR]⟩

theorem EncodeMatches.lrW (rd : XReg) (rs1 : XReg) (aq : Bool) (rl : Bool) : EncodeMatches.Statement (.lrW rd rs1 aq rl) := fun _ =>
  ⟨_, List.mem_of_getElem? (i := 67) rfl, rfl, (encAmo_maskLr _ _ _ _ _ _ _).trans rfl, by simp only [encode_lrW, fieldRd_encAmo, fieldRs1_encAmo, fieldAq_encAmo, fieldRl_encAmo]⟩

theorem EncodeMatches.scW (rd : XReg) (rs2 : XReg) (rs1 : XReg) (aq : Bool) (rl : Bool) : EncodeMatches.Statement (.scW rd rs2 rs1 aq rl) := fun _ =>
  ⟨_, List.mem_of_getElem? (i := 68) rfl, rfl, (encAmo_mask _ _ _ _ _ _ _).trans rfl, by simp only [encode_scW, fieldRd_encAmo, fieldRs2_encAmo, fieldRs1_encAmo, fieldAq_encAmo, fieldRl_encAmo]⟩

theorem EncodeMatches.amoswapW (rd : XReg) (rs2 : XReg) (rs1 : XReg) (aq : Bool) (rl : Bool) : EncodeMatches.Statement (.amoswapW rd rs2 rs1 aq rl) := fun _ =>
  ⟨_, List.mem_of_getElem? (i := 69) rfl, rfl, (encAmo_mask _ _ _ _ _ _ _).trans rfl, by simp only [encode_amoswapW, fieldRd_encAmo, fieldRs2_encAmo, fieldRs1_encAmo, fieldAq_encAmo, fieldRl_encAmo]⟩

theorem EncodeMatches.amoaddW (rd : XReg) (rs2 : XReg) (rs1 : XReg) (aq : Bool) (rl : Bool) : EncodeMatches.Statement (.amoaddW rd rs2 rs1 aq rl) := fun _ =>
  ⟨_, List.mem_of_getElem? (i := 70) rfl, rfl, (encAmo_mask _ _ _ _ _ _ _).trans rfl, by simp only [encode_amoaddW, fieldRd_encAmo, fieldRs2_encAmo, fieldRs1_encAmo, fieldAq_encAmo, fieldRl_encAmo]⟩

theorem EncodeMatches.amoxorW (rd : XReg) (rs2 : XReg) (rs1 : XReg) (aq : Bool) (rl : Bool) : EncodeMatches.Statement (.amoxorW rd rs2 rs1 aq rl) := fun _ =>
  ⟨_, List.mem_of_getElem? (i := 71) rfl, rfl, (encAmo_mask _ _ _ _ _ _ _).trans rfl, by simp only [encode_amoxorW, fieldRd_encAmo, fieldRs2_encAmo, fieldRs1_encAmo, fieldAq_encAmo, fieldRl_encAmo]⟩

theorem EncodeMatches.amoorW (rd : XReg) (rs2 : XReg) (rs1 : XReg) (aq : Bool) (rl : Bool) : EncodeMatches.Statement (.amoorW rd rs2 rs1 aq rl) := fun _ =>
  ⟨_, List.mem_of_getElem? (i := 72) rfl, rfl, (encAmo_mask _ _ _ _ _ _ _).trans rfl, by simp only [encode_amoorW, fieldRd_encAmo, fieldRs2_encAmo, fieldRs1_encAmo, fieldAq_encAmo, fieldRl_encAmo]⟩

theorem EncodeMatches.amoandW (rd : XReg) (rs2 : XReg) (rs1 : XReg) (aq : Bool) (rl : Bool) : EncodeMatches.Statement (.amoandW rd rs2 rs1 aq rl) := fun _ =>
  ⟨_, List.mem_of_getElem? (i := 73) rfl, rfl, (encAmo_mask _ _ _ _ _ _ _).trans rfl, by simp only [encode_amoandW, fieldRd_encAmo, fieldRs2_encAmo, fieldRs1_encAmo, fieldAq_encAmo, fieldRl_encAmo]⟩

theorem EncodeMatches.amominW (rd : XReg) (rs2 : XReg) (rs1 : XReg) (aq : Bool) (rl : Bool) : EncodeMatches.Statement (.amominW rd rs2 rs1 aq rl) := fun _ =>
  ⟨_, List.mem_of_getElem? (i := 74) rfl, rfl, (encAmo_mask _ _ _ _ _ _ _).trans rfl, by simp only [encode_amominW, fieldRd_encAmo, fieldRs2_encAmo, fieldRs1_encAmo, fieldAq_encAmo, fieldRl_encAmo]⟩

theorem EncodeMatches.amomaxW (rd : XReg) (rs2 : XReg) (rs1 : XReg) (aq : Bool) (rl : Bool) : EncodeMatches.Statement (.amomaxW rd rs2 rs1 aq rl) := fun _ =>
  ⟨_, List.mem_of_getElem? (i := 75) rfl, rfl, (encAmo_mask _ _ _ _ _ _ _).trans rfl, by simp only [encode_amomaxW, fieldRd_encAmo, fieldRs2_encAmo, fieldRs1_encAmo, fieldAq_encAmo, fieldRl_encAmo]⟩

theorem EncodeMatches.amominuW (rd : XReg) (rs2 : XReg) (rs1 : XReg) (aq : Bool) (rl : Bool) : EncodeMatches.Statement (.amominuW rd rs2 rs1 aq rl) := fun _ =>
  ⟨_, List.mem_of_getElem? (i := 76) rfl, rfl, (encAmo_mask _ _ _ _ _ _ _).trans rfl, by simp only [encode_amominuW, fieldRd_encAmo, fieldRs2_encAmo, fieldRs1_encAmo, fieldAq_encAmo, fieldRl_encAmo]⟩

theorem EncodeMatches.amomaxuW (rd : XReg) (rs2 : XReg) (rs1 : XReg) (aq : Bool) (rl : Bool) : EncodeMatches.Statement (.amomaxuW rd rs2 rs1 aq rl) := fun _ =>
  ⟨_, List.mem_of_getElem? (i := 77) rfl, rfl, (encAmo_mask _ _ _ _ _ _ _).trans rfl, by simp only [encode_amomaxuW, fieldRd_encAmo, fieldRs2_encAmo, fieldRs1_encAmo, fieldAq_encAmo, fieldRl_encAmo]⟩

theorem EncodeMatches.lrD (rd : XReg) (rs1 : XReg) (aq : Bool) (rl : Bool) : EncodeMatches.Statement (.lrD rd rs1 aq rl) := fun _ =>
  ⟨_, List.mem_of_getElem? (i := 78) rfl, rfl, (encAmo_maskLr _ _ _ _ _ _ _).trans rfl, by simp only [encode_lrD, fieldRd_encAmo, fieldRs1_encAmo, fieldAq_encAmo, fieldRl_encAmo]⟩

theorem EncodeMatches.scD (rd : XReg) (rs2 : XReg) (rs1 : XReg) (aq : Bool) (rl : Bool) : EncodeMatches.Statement (.scD rd rs2 rs1 aq rl) := fun _ =>
  ⟨_, List.mem_of_getElem? (i := 79) rfl, rfl, (encAmo_mask _ _ _ _ _ _ _).trans rfl, by simp only [encode_scD, fieldRd_encAmo, fieldRs2_encAmo, fieldRs1_encAmo, fieldAq_encAmo, fieldRl_encAmo]⟩

theorem EncodeMatches.amoswapD (rd : XReg) (rs2 : XReg) (rs1 : XReg) (aq : Bool) (rl : Bool) : EncodeMatches.Statement (.amoswapD rd rs2 rs1 aq rl) := fun _ =>
  ⟨_, List.mem_of_getElem? (i := 80) rfl, rfl, (encAmo_mask _ _ _ _ _ _ _).trans rfl, by simp only [encode_amoswapD, fieldRd_encAmo, fieldRs2_encAmo, fieldRs1_encAmo, fieldAq_encAmo, fieldRl_encAmo]⟩

theorem EncodeMatches.amoaddD (rd : XReg) (rs2 : XReg) (rs1 : XReg) (aq : Bool) (rl : Bool) : EncodeMatches.Statement (.amoaddD rd rs2 rs1 aq rl) := fun _ =>
  ⟨_, List.mem_of_getElem? (i := 81) rfl, rfl, (encAmo_mask _ _ _ _ _ _ _).trans rfl, by simp only [encode_amoaddD, fieldRd_encAmo, fieldRs2_encAmo, fieldRs1_encAmo, fieldAq_encAmo, fieldRl_encAmo]⟩

theorem EncodeMatches.amoxorD (rd : XReg) (rs2 : XReg) (rs1 : XReg) (aq : Bool) (rl : Bool) : EncodeMatches.Statement (.amoxorD rd rs2 rs1 aq rl) := fun _ =>
  ⟨_, List.mem_of_getElem? (i := 82) rfl, rfl, (encAmo_mask _ _ _ _ _ _ _).trans rfl, by simp only [encode_amoxorD, fieldRd_encAmo, fieldRs2_encAmo, fieldRs1_encAmo, fieldAq_encAmo, fieldRl_encAmo]⟩

theorem EncodeMatches.amoorD (rd : XReg) (rs2 : XReg) (rs1 : XReg) (aq : Bool) (rl : Bool) : EncodeMatches.Statement (.amoorD rd rs2 rs1 aq rl) := fun _ =>
  ⟨_, List.mem_of_getElem? (i := 83) rfl, rfl, (encAmo_mask _ _ _ _ _ _ _).trans rfl, by simp only [encode_amoorD, fieldRd_encAmo, fieldRs2_encAmo, fieldRs1_encAmo, fieldAq_encAmo, fieldRl_encAmo]⟩

theorem EncodeMatches.amoandD (rd : XReg) (rs2 : XReg) (rs1 : XReg) (aq : Bool) (rl : Bool) : EncodeMatches.Statement (.amoandD rd rs2 rs1 aq rl) := fun _ =>
  ⟨_, List.mem_of_getElem? (i := 84) rfl, rfl, (encAmo_mask _ _ _ _ _ _ _).trans rfl, by simp only [encode_amoandD, fieldRd_encAmo, fieldRs2_encAmo, fieldRs1_encAmo, fieldAq_encAmo, fieldRl_encAmo]⟩

theorem EncodeMatches.amominD (rd : XReg) (rs2 : XReg) (rs1 : XReg) (aq : Bool) (rl : Bool) : EncodeMatches.Statement (.amominD rd rs2 rs1 aq rl) := fun _ =>
  ⟨_, List.mem_of_getElem? (i := 85) rfl, rfl, (encAmo_mask _ _ _ _ _ _ _).trans rfl, by simp only [encode_amominD, fieldRd_encAmo, fieldRs2_encAmo, fieldRs1_encAmo, fieldAq_encAmo, fieldRl_encAmo]⟩

theorem EncodeMatches.amomaxD (rd : XReg) (rs2 : XReg) (rs1 : XReg) (aq : Bool) (rl : Bool) : EncodeMatches.Statement (.amomaxD rd rs2 rs1 aq rl) := fun _ =>
  ⟨_, List.mem_of_getElem? (i := 86) rfl, rfl, (encAmo_mask _ _ _ _ _ _ _).trans rfl, by simp only [encode_amomaxD, fieldRd_encAmo, fieldRs2_encAmo, fieldRs1_encAmo, fieldAq_encAmo, fieldRl_encAmo]⟩

theorem EncodeMatches.amominuD (rd : XReg) (rs2 : XReg) (rs1 : XReg) (aq : Bool) (rl : Bool) : EncodeMatches.Statement (.amominuD rd rs2 rs1 aq rl) := fun _ =>
  ⟨_, List.mem_of_getElem? (i := 87) rfl, rfl, (encAmo_mask _ _ _ _ _ _ _).trans rfl, by simp only [encode_amominuD, fieldRd_encAmo, fieldRs2_encAmo, fieldRs1_encAmo, fieldAq_encAmo, fieldRl_encAmo]⟩

theorem EncodeMatches.amomaxuD (rd : XReg) (rs2 : XReg) (rs1 : XReg) (aq : Bool) (rl : Bool) : EncodeMatches.Statement (.amomaxuD rd rs2 rs1 aq rl) := fun _ =>
  ⟨_, List.mem_of_getElem? (i := 88) rfl, rfl, (encAmo_mask _ _ _ _ _ _ _).trans rfl, by simp only [encode_amomaxuD, fieldRd_encAmo, fieldRs2_encAmo, fieldRs1_encAmo, fieldAq_encAmo, fieldRl_encAmo]⟩

theorem EncodeMatches.flw (rd : FReg) (rs1 : XReg) (imm : BitVec 12) : EncodeMatches.Statement (.flw rd rs1 imm) := fun _ =>
  ⟨_, List.mem_of_getElem? (i := 89) rfl, rfl, (encI_mask _ _ _ _ _).trans rfl, by simp only [encode_flw, fieldRd_encI, fieldRs1_encI, immI_encI]⟩

theorem EncodeMatches.fsw (rs2 : FReg) (rs1 : XReg) (imm : BitVec 12) : EncodeMatches.Statement (.fsw rs2 rs1 imm) := fun _ =>
  ⟨_, List.mem_of_getElem? (i := 90) rfl, rfl, (encS_mask _ _ _ _ _).trans rfl, by simp only [encode_fsw, fieldRs2_encS, fieldRs1_encS, immS_encS]⟩

theorem EncodeMatches.fmaddS (rd : FReg) (rs1 : FReg) (rs2 : FReg) (rs3 : FReg) (rm : Rm) : EncodeMatches.Statement (.fmaddS rd rs1 rs2 rs3 rm) := fun _ =>
  ⟨_, List.mem_of_getElem? (i := 91) rfl, rfl, (encR4_mask _ _ _ _ _ _ _).trans rfl, by simp only [encode_fmaddS, fieldRd_encR4, fieldRs1_encR4, fieldRs2_encR4, fieldRs3_encR4, fieldRm_encR4]⟩

theorem EncodeMatches.fmsubS (rd : FReg) (rs1 : FReg) (rs2 : FReg) (rs3 : FReg) (rm : Rm) : EncodeMatches.Statement (.fmsubS rd rs1 rs2 rs3 rm) := fun _ =>
  ⟨_, List.mem_of_getElem? (i := 92) rfl, rfl, (encR4_mask _ _ _ _ _ _ _).trans rfl, by simp only [encode_fmsubS, fieldRd_encR4, fieldRs1_encR4, fieldRs2_encR4, fieldRs3_encR4, fieldRm_encR4]⟩

theorem EncodeMatches.fnmsubS (rd : FReg) (rs1 : FReg) (rs2 : FReg) (rs3 : FReg) (rm : Rm) : EncodeMatches.Statement (.fnmsubS rd rs1 rs2 rs3 rm) := fun _ =>
  ⟨_, List.mem_of_getElem? (i := 93) rfl, rfl, (encR4_mask _ _ _ _ _ _ _).trans rfl, by simp only [encode_fnmsubS, fieldRd_encR4, fieldRs1_encR4, fieldRs2_encR4, fieldRs3_encR4, fieldRm_encR4]⟩

theorem EncodeMatches.fnmaddS (rd : FReg) (rs1 : FReg) (rs2 : FReg) (rs3 : FReg) (rm : Rm) : EncodeMatches.Statement (.fnmaddS rd rs1 rs2 rs3 rm) := fun _ =>
  ⟨_, List.mem_of_getElem? (i := 94) rfl, rfl, (encR4_mask _ _ _ _ _ _ _).trans rfl, by simp only [encode_fnmaddS, fieldRd_encR4, fieldRs1_encR4, fieldRs2_encR4, fieldRs3_encR4, fieldRm_encR4]⟩

theorem EncodeMatches.faddS (rd : FReg) (rs1 : FReg) (rs2 : FReg) (rm : Rm) : EncodeMatches.Statement (.faddS rd rs1 rs2 rm) := fun _ =>
  ⟨_, List.mem_of_getElem? (i := 95) rfl, rfl, (encR_maskRm _ _ _ _ _ _).trans rfl, by simp only [encode_faddS, fieldRd_encR, fieldRs1_encR, fieldRs2_encR, fieldRm_encR]⟩

theorem EncodeMatches.fsubS (rd : FReg) (rs1 : FReg) (rs2 : FReg) (rm : Rm) : EncodeMatches.Statement (.fsubS rd rs1 rs2 rm) := fun _ =>
  ⟨_, List.mem_of_getElem? (i := 96) rfl, rfl, (encR_maskRm _ _ _ _ _ _).trans rfl, by simp only [encode_fsubS, fieldRd_encR, fieldRs1_encR, fieldRs2_encR, fieldRm_encR]⟩

theorem EncodeMatches.fmulS (rd : FReg) (rs1 : FReg) (rs2 : FReg) (rm : Rm) : EncodeMatches.Statement (.fmulS rd rs1 rs2 rm) := fun _ =>
  ⟨_, List.mem_of_getElem? (i := 97) rfl, rfl, (encR_maskRm _ _ _ _ _ _).trans rfl, by simp only [encode_fmulS, fieldRd_encR, fieldRs1_encR, fieldRs2_encR, fieldRm_encR]⟩

theorem EncodeMatches.fdivS (rd : FReg) (rs1 : FReg) (rs2 : FReg) (rm : Rm) : EncodeMatches.Statement (.fdivS rd rs1 rs2 rm) := fun _ =>
  ⟨_, List.mem_of_getElem? (i := 98) rfl, rfl, (encR_maskRm _ _ _ _ _ _).trans rfl, by simp only [encode_fdivS, fieldRd_encR, fieldRs1_encR, fieldRs2_encR, fieldRm_encR]⟩

theorem EncodeMatches.fsgnjS (rd : FReg) (rs1 : FReg) (rs2 : FReg) : EncodeMatches.Statement (.fsgnjS rd rs1 rs2) := fun _ =>
  ⟨_, List.mem_of_getElem? (i := 99) rfl, rfl, (encR_maskFunct _ _ _ _ _ _).trans rfl, by simp only [encode_fsgnjS, fieldRd_encR, fieldRs1_encR, fieldRs2_encR]⟩

theorem EncodeMatches.fsgnjnS (rd : FReg) (rs1 : FReg) (rs2 : FReg) : EncodeMatches.Statement (.fsgnjnS rd rs1 rs2) := fun _ =>
  ⟨_, List.mem_of_getElem? (i := 100) rfl, rfl, (encR_maskFunct _ _ _ _ _ _).trans rfl, by simp only [encode_fsgnjnS, fieldRd_encR, fieldRs1_encR, fieldRs2_encR]⟩

theorem EncodeMatches.fsgnjxS (rd : FReg) (rs1 : FReg) (rs2 : FReg) : EncodeMatches.Statement (.fsgnjxS rd rs1 rs2) := fun _ =>
  ⟨_, List.mem_of_getElem? (i := 101) rfl, rfl, (encR_maskFunct _ _ _ _ _ _).trans rfl, by simp only [encode_fsgnjxS, fieldRd_encR, fieldRs1_encR, fieldRs2_encR]⟩

theorem EncodeMatches.fminS (rd : FReg) (rs1 : FReg) (rs2 : FReg) : EncodeMatches.Statement (.fminS rd rs1 rs2) := fun _ =>
  ⟨_, List.mem_of_getElem? (i := 102) rfl, rfl, (encR_maskFunct _ _ _ _ _ _).trans rfl, by simp only [encode_fminS, fieldRd_encR, fieldRs1_encR, fieldRs2_encR]⟩

theorem EncodeMatches.fmaxS (rd : FReg) (rs1 : FReg) (rs2 : FReg) : EncodeMatches.Statement (.fmaxS rd rs1 rs2) := fun _ =>
  ⟨_, List.mem_of_getElem? (i := 103) rfl, rfl, (encR_maskFunct _ _ _ _ _ _).trans rfl, by simp only [encode_fmaxS, fieldRd_encR, fieldRs1_encR, fieldRs2_encR]⟩

theorem EncodeMatches.fsqrtS (rd : FReg) (rs1 : FReg) (rm : Rm) : EncodeMatches.Statement (.fsqrtS rd rs1 rm) := fun _ =>
  ⟨_, List.mem_of_getElem? (i := 104) rfl, rfl, (encR_maskSelRm _ _ _ _ _ _).trans rfl, by simp only [encode_fsqrtS, fieldRd_encR, fieldRs1_encR, fieldRm_encR]⟩

theorem EncodeMatches.fleS (rd : XReg) (rs1 : FReg) (rs2 : FReg) : EncodeMatches.Statement (.fleS rd rs1 rs2) := fun _ =>
  ⟨_, List.mem_of_getElem? (i := 105) rfl, rfl, (encR_maskFunct _ _ _ _ _ _).trans rfl, by simp only [encode_fleS, fieldRd_encR, fieldRs1_encR, fieldRs2_encR]⟩

theorem EncodeMatches.fltS (rd : XReg) (rs1 : FReg) (rs2 : FReg) : EncodeMatches.Statement (.fltS rd rs1 rs2) := fun _ =>
  ⟨_, List.mem_of_getElem? (i := 106) rfl, rfl, (encR_maskFunct _ _ _ _ _ _).trans rfl, by simp only [encode_fltS, fieldRd_encR, fieldRs1_encR, fieldRs2_encR]⟩

theorem EncodeMatches.feqS (rd : XReg) (rs1 : FReg) (rs2 : FReg) : EncodeMatches.Statement (.feqS rd rs1 rs2) := fun _ =>
  ⟨_, List.mem_of_getElem? (i := 107) rfl, rfl, (encR_maskFunct _ _ _ _ _ _).trans rfl, by simp only [encode_feqS, fieldRd_encR, fieldRs1_encR, fieldRs2_encR]⟩

theorem EncodeMatches.fcvtWS (rd : XReg) (rs1 : FReg) (rm : Rm) : EncodeMatches.Statement (.fcvtWS rd rs1 rm) := fun _ =>
  ⟨_, List.mem_of_getElem? (i := 108) rfl, rfl, (encR_maskSelRm _ _ _ _ _ _).trans rfl, by simp only [encode_fcvtWS, fieldRd_encR, fieldRs1_encR, fieldRm_encR]⟩

theorem EncodeMatches.fcvtWuS (rd : XReg) (rs1 : FReg) (rm : Rm) : EncodeMatches.Statement (.fcvtWuS rd rs1 rm) := fun _ =>
  ⟨_, List.mem_of_getElem? (i := 109) rfl, rfl, (encR_maskSelRm _ _ _ _ _ _).trans rfl, by simp only [encode_fcvtWuS, fieldRd_encR, fieldRs1_encR, fieldRm_encR]⟩

theorem EncodeMatches.fcvtSW (rd : FReg) (rs1 : XReg) (rm : Rm) : EncodeMatches.Statement (.fcvtSW rd rs1 rm) := fun _ =>
  ⟨_, List.mem_of_getElem? (i := 110) rfl, rfl, (encR_maskSelRm _ _ _ _ _ _).trans rfl, by simp only [encode_fcvtSW, fieldRd_encR, fieldRs1_encR, fieldRm_encR]⟩

theorem EncodeMatches.fcvtSWu (rd : FReg) (rs1 : XReg) (rm : Rm) : EncodeMatches.Statement (.fcvtSWu rd rs1 rm) := fun _ =>
  ⟨_, List.mem_of_getElem? (i := 111) rfl, rfl, (encR_maskSelRm _ _ _ _ _ _).trans rfl, by simp only [encode_fcvtSWu, fieldRd_encR, fieldRs1_encR, fieldRm_encR]⟩

theorem EncodeMatches.fmvXS (rd : XReg) (rs1 : FReg) : EncodeMatches.Statement (.fmvXS rd rs1) := fun _ =>
  ⟨_, List.mem_of_getElem? (i := 112) rfl, rfl, (encR_maskSel _ _ _ _ _ _).trans rfl, by simp only [encode_fmvXS, fieldRd_encR, fieldRs1_encR]⟩

theorem EncodeMatches.fclassS (rd : XReg) (rs1 : FReg) : EncodeMatches.Statement (.fclassS rd rs1) := fun _ =>
  ⟨_, List.mem_of_getElem? (i := 113) rfl, rfl, (encR_maskSel _ _ _ _ _ _).trans rfl, by simp only [encode_fclassS, fieldRd_encR, fieldRs1_encR]⟩

theorem EncodeMatches.fmvSX (rd : FReg) (rs1 : XReg) : EncodeMatches.Statement (.fmvSX rd rs1) := fun _ =>
  ⟨_, List.mem_of_getElem? (i := 114) rfl, rfl, (encR_maskSel _ _ _ _ _ _).trans rfl, by simp only [encode_fmvSX, fieldRd_encR, fieldRs1_encR]⟩

theorem EncodeMatches.fcvtLS (rd : XReg) (rs1 : FReg) (rm : Rm) : EncodeMatches.Statement (.fcvtLS rd rs1 rm) := fun _ =>
  ⟨_, List.mem_of_getElem? (i := 115) rfl, rfl, (encR_maskSelRm _ _ _ _ _ _).trans rfl, by simp only [encode_fcvtLS, fieldRd_encR, fieldRs1_encR, fieldRm_encR]⟩

theorem EncodeMatches.fcvtLuS (rd : XReg) (rs1 : FReg) (rm : Rm) : EncodeMatches.Statement (.fcvtLuS rd rs1 rm) := fun _ =>
  ⟨_, List.mem_of_getElem? (i := 116) rfl, rfl, (encR_maskSelRm _ _ _ _ _ _).trans rfl, by simp only [encode_fcvtLuS, fieldRd_encR, fieldRs1_encR, fieldRm_encR]⟩

theorem EncodeMatches.fcvtSL (rd : FReg) (rs1 : XReg) (rm : Rm) : EncodeMatches.Statement (.fcvtSL rd rs1 rm) := fun _ =>
  ⟨_, List.mem_of_getElem? (i := 117) rfl, rfl, (encR_maskSelRm _ _ _ _ _ _).trans rfl, by simp only [encode_fcvtSL, fieldRd_encR, fieldRs1_encR, fieldRm_encR]⟩

theorem EncodeMatches.fcvtSLu (rd : FReg) (rs1 : XReg) (rm : Rm) : EncodeMatches.Statement (.fcvtSLu rd rs1 rm) := fun _ =>
  ⟨_, List.mem_of_getElem? (i := 118) rfl, rfl, (encR_maskSelRm _ _ _ _ _ _).trans rfl, by simp only [encode_fcvtSLu, fieldRd_encR, fieldRs1_encR, fieldRm_encR]⟩

theorem EncodeMatches.fld (rd : FReg) (rs1 : XReg) (imm : BitVec 12) : EncodeMatches.Statement (.fld rd rs1 imm) := fun _ =>
  ⟨_, List.mem_of_getElem? (i := 119) rfl, rfl, (encI_mask _ _ _ _ _).trans rfl, by simp only [encode_fld, fieldRd_encI, fieldRs1_encI, immI_encI]⟩

theorem EncodeMatches.fsd (rs2 : FReg) (rs1 : XReg) (imm : BitVec 12) : EncodeMatches.Statement (.fsd rs2 rs1 imm) := fun _ =>
  ⟨_, List.mem_of_getElem? (i := 120) rfl, rfl, (encS_mask _ _ _ _ _).trans rfl, by simp only [encode_fsd, fieldRs2_encS, fieldRs1_encS, immS_encS]⟩

theorem EncodeMatches.fmaddD (rd : FReg) (rs1 : FReg) (rs2 : FReg) (rs3 : FReg) (rm : Rm) : EncodeMatches.Statement (.fmaddD rd rs1 rs2 rs3 rm) := fun _ =>
  ⟨_, List.mem_of_getElem? (i := 121) rfl, rfl, (encR4_mask _ _ _ _ _ _ _).trans rfl, by simp only [encode_fmaddD, fieldRd_encR4, fieldRs1_encR4, fieldRs2_encR4, fieldRs3_encR4, fieldRm_encR4]⟩

theorem EncodeMatches.fmsubD (rd : FReg) (rs1 : FReg) (rs2 : FReg) (rs3 : FReg) (rm : Rm) : EncodeMatches.Statement (.fmsubD rd rs1 rs2 rs3 rm) := fun _ =>
  ⟨_, List.mem_of_getElem? (i := 122) rfl, rfl, (encR4_mask _ _ _ _ _ _ _).trans rfl, by simp only [encode_fmsubD, fieldRd_encR4, fieldRs1_encR4, fieldRs2_encR4, fieldRs3_encR4, fieldRm_encR4]⟩

theorem EncodeMatches.fnmsubD (rd : FReg) (rs1 : FReg) (rs2 : FReg) (rs3 : FReg) (rm : Rm) : EncodeMatches.Statement (.fnmsubD rd rs1 rs2 rs3 rm) := fun _ =>
  ⟨_, List.mem_of_getElem? (i := 123) rfl, rfl, (encR4_mask _ _ _ _ _ _ _).trans rfl, by simp only [encode_fnmsubD, fieldRd_encR4, fieldRs1_encR4, fieldRs2_encR4, fieldRs3_encR4, fieldRm_encR4]⟩

theorem EncodeMatches.fnmaddD (rd : FReg) (rs1 : FReg) (rs2 : FReg) (rs3 : FReg) (rm : Rm) : EncodeMatches.Statement (.fnmaddD rd rs1 rs2 rs3 rm) := fun _ =>
  ⟨_, List.mem_of_getElem? (i := 124) rfl, rfl, (encR4_mask _ _ _ _ _ _ _).trans rfl, by simp only [encode_fnmaddD, fieldRd_encR4, fieldRs1_encR4, fieldRs2_encR4, fieldRs3_encR4, fieldRm_encR4]⟩

theorem EncodeMatches.faddD (rd : FReg) (rs1 : FReg) (rs2 : FReg) (rm : Rm) : EncodeMatches.Statement (.faddD rd rs1 rs2 rm) := fun _ =>
  ⟨_, List.mem_of_getElem? (i := 125) rfl, rfl, (encR_maskRm _ _ _ _ _ _).trans rfl, by simp only [encode_faddD, fieldRd_encR, fieldRs1_encR, fieldRs2_encR, fieldRm_encR]⟩

theorem EncodeMatches.fsubD (rd : FReg) (rs1 : FReg) (rs2 : FReg) (rm : Rm) : EncodeMatches.Statement (.fsubD rd rs1 rs2 rm) := fun _ =>
  ⟨_, List.mem_of_getElem? (i := 126) rfl, rfl, (encR_maskRm _ _ _ _ _ _).trans rfl, by simp only [encode_fsubD, fieldRd_encR, fieldRs1_encR, fieldRs2_encR, fieldRm_encR]⟩

theorem EncodeMatches.fmulD (rd : FReg) (rs1 : FReg) (rs2 : FReg) (rm : Rm) : EncodeMatches.Statement (.fmulD rd rs1 rs2 rm) := fun _ =>
  ⟨_, List.mem_of_getElem? (i := 127) rfl, rfl, (encR_maskRm _ _ _ _ _ _).trans rfl, by simp only [encode_fmulD, fieldRd_encR, fieldRs1_encR, fieldRs2_encR, fieldRm_encR]⟩

theorem EncodeMatches.fdivD (rd : FReg) (rs1 : FReg) (rs2 : FReg) (rm : Rm) : EncodeMatches.Statement (.fdivD rd rs1 rs2 rm) := fun _ =>
  ⟨_, List.mem_of_getElem? (i := 128) rfl, rfl, (encR_maskRm _ _ _ _ _ _).trans rfl, by simp only [encode_fdivD, fieldRd_encR, fieldRs1_encR, fieldRs2_encR, fieldRm_encR]⟩

theorem EncodeMatches.fsgnjD (rd : FReg) (rs1 : FReg) (rs2 : FReg) : EncodeMatches.Statement (.fsgnjD rd rs1 rs2) := fun _ =>
  ⟨_, List.mem_of_getElem? (i := 129) rfl, rfl, (encR_maskFunct _ _ _ _ _ _).trans rfl, by simp only [encode_fsgnjD, fieldRd_encR, fieldRs1_encR, fieldRs2_encR]⟩

theorem EncodeMatches.fsgnjnD (rd : FReg) (rs1 : FReg) (rs2 : FReg) : EncodeMatches.Statement (.fsgnjnD rd rs1 rs2) := fun _ =>
  ⟨_, List.mem_of_getElem? (i := 130) rfl, rfl, (encR_maskFunct _ _ _ _ _ _).trans rfl, by simp only [encode_fsgnjnD, fieldRd_encR, fieldRs1_encR, fieldRs2_encR]⟩

theorem EncodeMatches.fsgnjxD (rd : FReg) (rs1 : FReg) (rs2 : FReg) : EncodeMatches.Statement (.fsgnjxD rd rs1 rs2) := fun _ =>
  ⟨_, List.mem_of_getElem? (i := 131) rfl, rfl, (encR_maskFunct _ _ _ _ _ _).trans rfl, by simp only [encode_fsgnjxD, fieldRd_encR, fieldRs1_encR, fieldRs2_encR]⟩

theorem EncodeMatches.fminD (rd : FReg) (rs1 : FReg) (rs2 : FReg) : EncodeMatches.Statement (.fminD rd rs1 rs2) := fun _ =>
  ⟨_, List.mem_of_getElem? (i := 132) rfl, rfl, (encR_maskFunct _ _ _ _ _ _).trans rfl, by simp only [encode_fminD, fieldRd_encR, fieldRs1_encR, fieldRs2_encR]⟩

theorem EncodeMatches.fmaxD (rd : FReg) (rs1 : FReg) (rs2 : FReg) : EncodeMatches.Statement (.fmaxD rd rs1 rs2) := fun _ =>
  ⟨_, List.mem_of_getElem? (i := 133) rfl, rfl, (encR_maskFunct _ _ _ _ _ _).trans rfl, by simp only [encode_fmaxD, fieldRd_encR, fieldRs1_encR, fieldRs2_encR]⟩

theorem EncodeMatches.fsqrtD (rd : FReg) (rs1 : FReg) (rm : Rm) : EncodeMatches.Statement (.fsqrtD rd rs1 rm) := fun _ =>
  ⟨_, List.mem_of_getElem? (i := 134) rfl, rfl, (encR_maskSelRm _ _ _ _ _ _).trans rfl, by simp only [encode_fsqrtD, fieldRd_encR, fieldRs1_encR, fieldRm_encR]⟩

theorem EncodeMatches.fleD (rd : XReg) (rs1 : FReg) (rs2 : FReg) : EncodeMatches.Statement (.fleD rd rs1 rs2) := fun _ =>
  ⟨_, List.mem_of_getElem? (i := 135) rfl, rfl, (encR_maskFunct _ _ _ _ _ _).trans rfl, by simp only [encode_fleD, fieldRd_encR, fieldRs1_encR, fieldRs2_encR]⟩

theorem EncodeMatches.fltD (rd : XReg) (rs1 : FReg) (rs2 : FReg) : EncodeMatches.Statement (.fltD rd rs1 rs2) := fun _ =>
  ⟨_, List.mem_of_getElem? (i := 136) rfl, rfl, (encR_maskFunct _ _ _ _ _ _).trans rfl, by simp only [encode_fltD, fieldRd_encR, fieldRs1_encR, fieldRs2_encR]⟩

theorem EncodeMatches.feqD (rd : XReg) (rs1 : FReg) (rs2 : FReg) : EncodeMatches.Statement (.feqD rd rs1 rs2) := fun _ =>
  ⟨_, List.mem_of_getElem? (i := 137) rfl, rfl, (encR_maskFunct _ _ _ _ _ _).trans rfl, by simp only [encode_feqD, fieldRd_encR, fieldRs1_encR, fieldRs2_encR]⟩

theorem EncodeMatches.fcvtWD (rd : XReg) (rs1 : FReg) (rm : Rm) : EncodeMatches.Statement (.fcvtWD rd rs1 rm) := fun _ =>
  ⟨_, List.mem_of_getElem? (i := 138) rfl, rfl, (encR_maskSelRm _ _ _ _ _ _).trans rfl, by simp only [encode_fcvtWD, fieldRd_encR, fieldRs1_encR, fieldRm_encR]⟩

theorem EncodeMatches.fcvtWuD (rd : XReg) (rs1 : FReg) (rm : Rm) : EncodeMatches.Statement (.fcvtWuD rd rs1 rm) := fun _ =>
  ⟨_, List.mem_of_getElem? (i := 139) rfl, rfl, (encR_maskSelRm _ _ _ _ _ _).trans rfl, by simp only [encode_fcvtWuD, fieldRd_encR, fieldRs1_encR, fieldRm_encR]⟩

theorem EncodeMatches.fcvtDW (rd : FReg) (rs1 : XReg) (rm : Rm) : EncodeMatches.Statement (.fcvtDW rd rs1 rm) := fun _ =>
  ⟨_, List.mem_of_getElem? (i := 140) rfl, rfl, (encR_maskSelRm _ _ _ _ _ _).trans rfl, by simp only [encode_fcvtDW, fieldRd_encR, fieldRs1_encR, fieldRm_encR]⟩

theorem EncodeMatches.fcvtDWu (rd : FReg) (rs1 : XReg) (rm : Rm) : EncodeMatches.Statement (.fcvtDWu rd rs1 rm) := fun _ =>
  ⟨_, List.mem_of_getElem? (i := 141) rfl, rfl, (encR_maskSelRm _ _ _ _ _ _).trans rfl, by simp only [encode_fcvtDWu, fieldRd_encR, fieldRs1_encR, fieldRm_encR]⟩

theorem EncodeMatches.fclassD (rd : XReg) (rs1 : FReg) : EncodeMatches.Statement (.fclassD rd rs1) := fun _ =>
  ⟨_, List.mem_of_getElem? (i := 142) rfl, rfl, (encR_maskSel _ _ _ _ _ _).trans rfl, by simp only [encode_fclassD, fieldRd_encR, fieldRs1_encR]⟩

theorem EncodeMatches.fcvtLD (rd : XReg) (rs1 : FReg) (rm : Rm) : EncodeMatches.Statement (.fcvtLD rd rs1 rm) := fun _ =>
  ⟨_, List.mem_of_getElem? (i := 143) rfl, rfl, (encR_maskSelRm _ _ _ _ _ _).trans rfl, by simp only [encode_fcvtLD, fieldRd_encR, fieldRs1_encR, fieldRm_encR]⟩

theorem EncodeMatches.fcvtLuD (rd : XReg) (rs1 : FReg) (rm : Rm) : EncodeMatches.Statement (.fcvtLuD rd rs1 rm) := fun _ =>
  ⟨_, List.mem_of_getElem? (i := 144) rfl, rfl, (encR_maskSelRm _ _ _ _ _ _).trans rfl, by simp only [encode_fcvtLuD, fieldRd_encR, fieldRs1_encR, fieldRm_encR]⟩

theorem EncodeMatches.fcvtDL (rd : FReg) (rs1 : XReg) (rm : Rm) : EncodeMatches.Statement (.fcvtDL rd rs1 rm) := fun _ =>
  ⟨_, List.mem_of_getElem? (i := 145) rfl, rfl, (encR_maskSelRm _ _ _ _ _ _).trans rfl, by simp only [encode_fcvtDL, fieldRd_encR, fieldRs1_encR, fieldRm_encR]⟩

theorem EncodeMatches.fcvtDLu (rd : FReg) (rs1 : XReg) (rm : Rm) : EncodeMatches.Statement (.fcvtDLu rd rs1 rm) := fun _ =>
  ⟨_, List.mem_of_getElem? (i := 146) rfl, rfl, (encR_maskSelRm _ _ _ _ _ _).trans rfl, by simp only [encode_fcvtDLu, fieldRd_encR, fieldRs1_encR, fieldRm_encR]⟩

theorem EncodeMatches.fmvXD (rd : XReg) (rs1 : FReg) : EncodeMatches.Statement (.fmvXD rd rs1) := fun _ =>
  ⟨_, List.mem_of_getElem? (i := 147) rfl, rfl, (encR_maskSel _ _ _ _ _ _).trans rfl, by simp only [encode_fmvXD, fieldRd_encR, fieldRs1_encR]⟩

theorem EncodeMatches.fmvDX (rd : FReg) (rs1 : XReg) : EncodeMatches.Statement (.fmvDX rd rs1) := fun _ =>
  ⟨_, List.mem_of_getElem? (i := 148) rfl, rfl, (encR_maskSel _ _ _ _ _ _).trans rfl, by simp only [encode_fmvDX, fieldRd_encR, fieldRs1_encR]⟩

end Sys2Proof.Laws
end

