-- ==== Sys2Proof/Tests/Slice0.lean ====
section
/-!
SUPPORT. The model's own tests: the checks of WellFormed, the decoding of words written out in the spec, one step of every
instruction on a vector of the spec, and, for every statement with hypotheses, a state and operands that meet them.
-/
namespace Sys2Proof.Tests

set_option Elab.async false

open Machine

/-! ### WellFormed: an ill-formed term for each check -/

/-- A row of XLEN = 64 has no encoding at XLEN = 32 (R113). -/
theorem test_wf_refuses_rv64_row_at_rv32 : (Instr.ld 5 2 0).wf .rv32 = false ∧ (Instr.ld 5 2 0).wf .rv64 = true := by decide

/-- The five-bit shift rows have no encoding of their own at XLEN = 64 (R98). -/
theorem test_wf_refuses_rv32_shift_at_rv64 :
    (Instr.slli32 3 1 4).wf .rv64 = false ∧ (Instr.slli32 3 1 4).wf .rv32 = true := by decide

/-- A branch offset is even (R105). -/
theorem test_wf_refuses_odd_branch_offset : (Instr.beq 1 2 7).wf .rv32 = false ∧ (Instr.beq 1 2 6).wf .rv32 = true := by decide

/-- A jump offset is even (R107). -/
theorem test_wf_refuses_odd_jump_offset : (Instr.jal 1 7).wf .rv64 = false ∧ (Instr.jal 1 (-8)).wf .rv64 = true := by decide

/-! ### Decoding: the words of the examples of files 40 to 49 -/

/-- Every word decodes to the instruction beside it, which encodes to the word. -/
def decodesTo (xl : XLen) (ps : List (Word × Instr)) : Bool :=
  ps.all fun p => decode xl p.1 == some p.2 && encode p.2 == p.1

theorem test_decode_rv32i_xlen32 : decodesTo .rv32 [
    (0x800002b7, .lui 5 0x80000),
    (0x123452b7, .lui 5 0x12345),
    (0x00001297, .auipc 5 1),
    (0xfffff297, .auipc 5 0xfffff),
    (0xff9ff0ef, .jal 1 (-8)),
    (0x002000ef, .jal 1 2),
    (0x004100e7, .jalr 1 2 4),
    (0x000100e7, .jalr 1 2 0),
    (0x00208863, .beq 1 2 16),
    (0x00208363, .beq 1 2 6),
    (0xfe209ee3, .bne 1 2 (-4)),
    (0x0020c463, .blt 1 2 8),
    (0x0020d463, .bge 1 2 8),
    (0x0020e463, .bltu 1 2 8),
    (0x0020f463, .bgeu 1 2 8),
    (0x00010283, .lb 5 2 0),
    (0x00310283, .lb 5 2 3),
    (0x00011283, .lh 5 2 0),
    (0x00211283, .lh 5 2 2),
    (0xffc12283, .lw 5 2 (-4)),
    (0x00012283, .lw 5 2 0),
    (0x00014283, .lbu 5 2 0),
    (0x00015283, .lhu 5 2 0),
    (0x00215283, .lhu 5 2 2),
    (0x003100a3, .sb 3 2 1),
    (0x00311123, .sh 3 2 2),
    (0xfe312e23, .sw 3 2 (-4)),
    (0x00312023, .sw 3 2 0),
    (0x00000013, .addi 0 0 0),
    (0xff908193, .addi 3 1 (-7)),
    (0xffc0a193, .slti 3 1 (-4)),
    (0xfff0b193, .sltiu 3 1 (-1)),
    (0x0010b193, .sltiu 3 1 1),
    (0xfff0c193, .xori 3 1 (-1)),
    (0x0ff0e193, .ori 3 1 0xff),
    (0xf000f193, .andi 3 1 (-256)),
    (0x00409193, .slli32 3 1 4),
    (0x01f09193, .slli32 3 1 31),
    (0x0040d193, .srli32 3 1 4),
    (0x4040d193, .srai32 3 1 4),
    (0x002081b3, .add 3 1 2),
    (0x402081b3, .sub 3 1 2),
    (0x002091b3, .sll 3 1 2),
    (0x0020a1b3, .slt 3 1 2),
    (0x0020b1b3, .sltu 3 1 2),
    (0x0020c1b3, .xor 3 1 2),
    (0x0020d1b3, .srl 3 1 2),
    (0x4020d1b3, .sra 3 1 2),
    (0x0020e1b3, .or 3 1 2),
    (0x0020f1b3, .and 3 1 2),
    (0x0ff0000f, .fence 15 15),
    (0x0330000f, .fence 3 3),
    (0x0000100f, .fenceI)] = true := by decide +kernel

theorem test_decode_rv32i_xlen64 : decodesTo .rv64 [
    (0x800002b7, .lui 5 0x80000),
    (0xfffff297, .auipc 5 0xfffff),
    (0x004100e7, .jalr 1 2 4),
    (0x00208363, .beq 1 2 6),
    (0x0020d463, .bge 1 2 8),
    (0x00010283, .lb 5 2 0),
    (0x00211283, .lh 5 2 2),
    (0x00014283, .lbu 5 2 0),
    (0x003100a3, .sb 3 2 1),
    (0x00312023, .sw 3 2 0),
    (0xffc0a193, .slti 3 1 (-4)),
    (0xfff0c193, .xori 3 1 (-1)),
    (0x002081b3, .add 3 1 2),
    (0x0020a1b3, .slt 3 1 2),
    (0x0020d1b3, .srl 3 1 2),
    (0x0020f1b3, .and 3 1 2),
    (0x0000100f, .fenceI)] = true := by decide +kernel

theorem test_decode_rv64i_xlen64 : decodesTo .rv64 [
    (0x00016283, .lwu 5 2 0),
    (0x00013283, .ld 5 2 0),
    (0xff813283, .ld 5 2 (-8)),
    (0x00313423, .sd 3 2 8),
    (0x00313023, .sd 3 2 0),
    (0x00409193, .slli64 3 1 4),
    (0x02009193, .slli64 3 1 32),
    (0x0040d193, .srli64 3 1 4),
    (0x03f0d193, .srli64 3 1 63),
    (0x4040d193, .srai64 3 1 4),
    (0x4200d193, .srai64 3 1 32),
    (0x0010819b, .addiw 3 1 1),
    (0x0000819b, .addiw 3 1 0),
    (0x01f0919b, .slliw 3 1 31),
    (0x0010919b, .slliw 3 1 1),
    (0x0040d19b, .srliw 3 1 4),
    (0x0000d19b, .srliw 3 1 0),
    (0x4040d19b, .sraiw 3 1 4),
    (0x002081bb, .addw 3 1 2),
    (0x402081bb, .subw 3 1 2),
    (0x002091bb, .sllw 3 1 2),
    (0x0020d1bb, .srlw 3 1 2),
    (0x4020d1bb, .sraw 3 1 2)] = true := by decide +kernel

theorem test_decode_rv32m_xlen32 : decodesTo .rv32 [
    (0x022081b3, .mul 3 1 2),
    (0x022091b3, .mulh 3 1 2),
    (0x0220a1b3, .mulhsu 3 1 2),
    (0x0220b1b3, .mulhu 3 1 2),
    (0x0220c1b3, .div 3 1 2),
    (0x0220d1b3, .divu 3 1 2),
    (0x0220e1b3, .rem 3 1 2),
    (0x0220f1b3, .remu 3 1 2)] = true := by decide +kernel

theorem test_decode_rv32m_xlen64 : decodesTo .rv64 [
    (0x022081b3, .mul 3 1 2),
    (0x0220b1b3, .mulhu 3 1 2),
    (0x0220e1b3, .rem 3 1 2)] = true := by decide +kernel

theorem test_decode_rv64m_xlen64 : decodesTo .rv64 [
    (0x022081bb, .mulw 3 1 2),
    (0x0220c1bb, .divw 3 1 2),
    (0x0220d1bb, .divuw 3 1 2),
    (0x0220e1bb, .remw 3 1 2),
    (0x0220f1bb, .remuw 3 1 2)] = true := by decide +kernel

theorem test_decode_rv32a_xlen32 : decodesTo .rv32 [
    (0x100122af, .lrW 5 2 false false),
    (0x160122af, .lrW 5 2 true true),
    (0x1831232f, .scW 6 3 2 false false),
    (0x1a31232f, .scW 6 3 2 false true),
    (0x083122af, .amoswapW 5 3 2 false false),
    (0x003122af, .amoaddW 5 3 2 false false),
    (0x0021212f, .amoaddW 2 2 2 false false),
    (0x203122af, .amoxorW 5 3 2 false false),
    (0x403122af, .amoorW 5 3 2 false false),
    (0x603122af, .amoandW 5 3 2 false false),
    (0x803122af, .amominW 5 3 2 false false),
    (0xa03122af, .amomaxW 5 3 2 false false),
    (0xc03122af, .amominuW 5 3 2 false false),
    (0xe03122af, .amomaxuW 5 3 2 false false)] = true := by decide +kernel

theorem test_decode_rv32a_xlen64 : decodesTo .rv64 [
    (0x100122af, .lrW 5 2 false false),
    (0x1a31232f, .scW 6 3 2 false true),
    (0x0021212f, .amoaddW 2 2 2 false false),
    (0x603122af, .amoandW 5 3 2 false false),
    (0xc03122af, .amominuW 5 3 2 false false)] = true := by decide +kernel

theorem test_decode_rv64a_xlen64 : decodesTo .rv64 [
    (0x100132af, .lrD 5 2 false false),
    (0x1831332f, .scD 6 3 2 false false),
    (0x083132af, .amoswapD 5 3 2 false false),
    (0x003132af, .amoaddD 5 3 2 false false),
    (0x203132af, .amoxorD 5 3 2 false false),
    (0x403132af, .amoorD 5 3 2 false false),
    (0x603132af, .amoandD 5 3 2 false false),
    (0x803132af, .amominD 5 3 2 false false),
    (0xa03132af, .amomaxD 5 3 2 false false),
    (0xc03132af, .amominuD 5 3 2 false false),
    (0xe03132af, .amomaxuD 5 3 2 false false)] = true := by decide +kernel

theorem test_decode_rv32f_xlen32 : decodesTo .rv32 [
    (0x00012087, .flw 1 2 0),
    (0x00412087, .flw 1 2 4),
    (0x00112227, .fsw 1 2 4),
    (0xfe112e27, .fsw 1 2 (-4)),
    (0x1820f243, .fmaddS 4 1 2 3 7),
    (0x1820f247, .fmsubS 4 1 2 3 7),
    (0x1820f24b, .fnmsubS 4 1 2 3 7),
    (0x1820f24f, .fnmaddS 4 1 2 3 7),
    (0x002081d3, .faddS 3 1 2 0),
    (0x082081d3, .fsubS 3 1 2 0),
    (0x102081d3, .fmulS 3 1 2 0),
    (0x182081d3, .fdivS 3 1 2 0),
    (0x202081d3, .fsgnjS 3 1 2),
    (0x201081d3, .fsgnjS 3 1 1),
    (0x202091d3, .fsgnjnS 3 1 2),
    (0x201091d3, .fsgnjnS 3 1 1),
    (0x2020a1d3, .fsgnjxS 3 1 2),
    (0x282081d3, .fminS 3 1 2),
    (0x282091d3, .fmaxS 3 1 2),
    (0x580081d3, .fsqrtS 3 1 0),
    (0xa02082d3, .fleS 5 1 2),
    (0xa02092d3, .fltS 5 1 2),
    (0xa020a2d3, .feqS 5 1 2),
    (0xc00082d3, .fcvtWS 5 1 0),
    (0xc01082d3, .fcvtWuS 5 1 0),
    (0xd00081d3, .fcvtSW 3 1 0),
    (0xd01081d3, .fcvtSWu 3 1 0),
    (0xe00082d3, .fmvXS 5 1),
    (0xe00092d3, .fclassS 5 1),
    (0xf00081d3, .fmvSX 3 1)] = true := by decide +kernel

theorem test_decode_rv32f_xlen64 : decodesTo .rv64 [
    (0x00012087, .flw 1 2 0),
    (0xfe112e27, .fsw 1 2 (-4)),
    (0x1820f24b, .fnmsubS 4 1 2 3 7),
    (0x082081d3, .fsubS 3 1 2 0),
    (0x202081d3, .fsgnjS 3 1 2),
    (0x201091d3, .fsgnjnS 3 1 1),
    (0x282091d3, .fmaxS 3 1 2),
    (0xa02092d3, .fltS 5 1 2),
    (0xc01082d3, .fcvtWuS 5 1 0),
    (0xe00082d3, .fmvXS 5 1)] = true := by decide +kernel

theorem test_decode_rv64f_xlen64 : decodesTo .rv64 [
    (0xc02082d3, .fcvtLS 5 1 0),
    (0xc03082d3, .fcvtLuS 5 1 0),
    (0xd02081d3, .fcvtSL 3 1 0),
    (0xd03081d3, .fcvtSLu 3 1 0)] = true := by decide +kernel

theorem test_decode_rv32d_xlen32 : decodesTo .rv32 [
    (0x00013087, .fld 1 2 0),
    (0x00813087, .fld 1 2 8),
    (0x00113427, .fsd 1 2 8),
    (0xfe113c27, .fsd 1 2 (-8)),
    (0x1a20f243, .fmaddD 4 1 2 3 7),
    (0x1a20f247, .fmsubD 4 1 2 3 7),
    (0x1a20f24b, .fnmsubD 4 1 2 3 7),
    (0x1a20f24f, .fnmaddD 4 1 2 3 7),
    (0x022081d3, .faddD 3 1 2 0),
    (0x0a2081d3, .fsubD 3 1 2 0),
    (0x122081d3, .fmulD 3 1 2 0),
    (0x1a2081d3, .fdivD 3 1 2 0),
    (0x222081d3, .fsgnjD 3 1 2),
    (0x221081d3, .fsgnjD 3 1 1),
    (0x222091d3, .fsgnjnD 3 1 2),
    (0x221091d3, .fsgnjnD 3 1 1),
    (0x2220a1d3, .fsgnjxD 3 1 2),
    (0x2210a1d3, .fsgnjxD 3 1 1),
    (0x2a2081d3, .fminD 3 1 2),
    (0x2a2091d3, .fmaxD 3 1 2),
    (0x5a0081d3, .fsqrtD 3 1 0),
    (0xa22082d3, .fleD 5 1 2),
    (0xa22092d3, .fltD 5 1 2),
    (0xa220a2d3, .feqD 5 1 2),
    (0xc20082d3, .fcvtWD 5 1 0),
    (0xc21082d3, .fcvtWuD 5 1 0),
    (0xd20081d3, .fcvtDW 3 1 0),
    (0xd21081d3, .fcvtDWu 3 1 0),
    (0xe20092d3, .fclassD 5 1)] = true := by decide +kernel

theorem test_decode_rv32d_xlen64 : decodesTo .rv64 [
    (0x00013087, .fld 1 2 0),
    (0xfe113c27, .fsd 1 2 (-8)),
    (0x1a20f24b, .fnmsubD 4 1 2 3 7),
    (0x0a2081d3, .fsubD 3 1 2 0),
    (0x222081d3, .fsgnjD 3 1 2),
    (0x221091d3, .fsgnjnD 3 1 1),
    (0x2a2081d3, .fminD 3 1 2),
    (0xa22082d3, .fleD 5 1 2),
    (0xc20082d3, .fcvtWD 5 1 0),
    (0xd21081d3, .fcvtDWu 3 1 0)] = true := by decide +kernel

theorem test_decode_rv64d_xlen64 : decodesTo .rv64 [
    (0xc22082d3, .fcvtLD 5 1 0),
    (0xc23082d3, .fcvtLuD 5 1 0),
    (0xd22081d3, .fcvtDL 3 1 0),
    (0xd23081d3, .fcvtDLu 3 1 0),
    (0xe20082d3, .fmvXD 5 1),
    (0xf20081d3, .fmvDX 3 1)] = true := by decide +kernel

/-- A word that a row of the other XLEN, a reserved field or no row spells, is refused by name. -/
theorem test_decode_refuses :
    decodeBytes .rv32 (bytesOfWord 0x00013283) = .error (.noRow 0x00013283) ∧
    decodeBytes .rv64 (bytesOfWord 0x103122af) = .error (.noRow 0x103122af) ∧
    decodeBytes .rv64 (bytesOfWord 0x00000073) = .error (.noRow 0x00000073) ∧
    decodeBytes .rv64 [0x13, 0, 0] = .error .truncated := by decide +kernel

/-! ### One step of every instruction, on vectors of 96_vectors_integer_atomic.md and 97_vectors_floating_point.md -/

/-- A small state: reset, with the given XLEN, pc, registers, `fcsr` and memory bytes. -/
def given (xl : XLen) (pc : DWord) (xs : List (XReg × DWord)) (fs : List (FReg × DWord)) (fcsr : BitVec 32)
    (mem : List Host.Cell) : State :=
  fs.foldl (fun s p => s.wF p.1 p.2)
    (xs.foldl (fun s p => s.wX p.1 p.2)
      { State.reset with
        cfg := { resetConfig with xlen := xl }
        pc := pc
        fcsr := fcsr
        mem := placeCells mem [] })

/-- What `p` sees of the state after one step of `s` that fetches the word `w`. -/
def after {α : Type} (s : State) (w : Nat) (p : State → α) : Option α :=
  match step (s.withFetchWord 32 w) with
  | .next t => some (p t)
  | .fault _ => none
  | .refused _ => none

/-- V1: `lui x5, 0x12345`. -/
theorem test_step_lui :
    after (given .rv32 0x1000 [(3, 0xd3030303), (8, 0xd8080808)] [] 0x0 []) 0x123452b7
      (fun t => t.xNat 5) = some 0x12345000 := by decide +kernel

/-- V4: `auipc x5, 0x1`. -/
theorem test_step_auipc :
    after (given .rv32 0x1000 [] [] 0x0 []) 0x1297
      (fun t => t.xNat 5) = some 0x2000 := by decide +kernel

/-- V7: `jal x1, 8`. -/
theorem test_step_jal :
    after (given .rv32 0x1000 [(8, 0xd8080808)] [] 0x0 []) 0x8000ef
      (fun t => (t.xNat 1, t.pc)) = some (0x1004, 0x1008) := by decide +kernel

/-- V11: `jalr x1, 4(x5)`. -/
theorem test_step_jalr :
    after (given .rv32 0x1000 [(4, 0xd4040404), (5, 0x2001)] [] 0x0 []) 0x4280e7
      (fun t => (t.xNat 1, t.pc)) = some (0x1004, 0x2004) := by decide +kernel

/-- V15: `beq x1, x2, 16`. -/
theorem test_step_beq :
    after (given .rv32 0x1000 [(1, 0x5), (2, 0x5)] [] 0x0 []) 0x208863
      (fun t => t.pc) = some 0x1010 := by decide +kernel

/-- V17: `bne x1, x2, 16`. -/
theorem test_step_bne :
    after (given .rv32 0x1000 [(1, 0x5), (2, 0x6)] [] 0x0 []) 0x209863
      (fun t => t.pc) = some 0x1010 := by decide +kernel

/-- V19: `blt x1, x2, 16`. -/
theorem test_step_blt :
    after (given .rv32 0x1000 [(1, 0xffffffff), (2, 0x1)] [] 0x0 []) 0x20c863
      (fun t => t.pc) = some 0x1010 := by decide +kernel

/-- V23: `bge x1, x2, 16`. -/
theorem test_step_bge :
    after (given .rv32 0x1000 [(1, 0x5), (2, 0x5)] [] 0x0 []) 0x20d863
      (fun t => t.pc) = some 0x1010 := by decide +kernel

/-- V21: `bltu x1, x2, 16`. -/
theorem test_step_bltu :
    after (given .rv32 0x1000 [(1, 0xffffffff), (2, 0x1)] [] 0x0 []) 0x20e863
      (fun t => t.pc) = some 0x1004 := by decide +kernel

/-- V25: `bgeu x1, x2, 16`. -/
theorem test_step_bgeu :
    after (given .rv32 0x1000 [(1, 0x80000000), (2, 0x0)] [] 0x0 []) 0x20f863
      (fun t => t.pc) = some 0x1010 := by decide +kernel

/-- V31: `lb x5, 0(x2)`. -/
theorem test_step_lb :
    after (given .rv32 0x1000 [(2, 0x2000)] [] 0x0 [(0x2000, 0xff), (0x2001, 0x82), (0x2002, 0xf3), (0x2003, 0x44), (0x2004, 0x55), (0x2005, 0x66), (0x2006, 0x77), (0x2007, 0x88)]) 0x10283
      (fun t => t.xNat 5) = some 0xffffffff := by decide +kernel

/-- V34: `lh x5, 0(x2)`. -/
theorem test_step_lh :
    after (given .rv32 0x1000 [(2, 0x2000)] [] 0x0 [(0x2000, 0xff), (0x2001, 0x82), (0x2002, 0xf3), (0x2003, 0x44), (0x2004, 0x55), (0x2005, 0x66), (0x2006, 0x77), (0x2007, 0x88)]) 0x11283
      (fun t => t.xNat 5) = some 0xffff82ff := by decide +kernel

/-- V37: `lw x5, 0(x2)`. -/
theorem test_step_lw :
    after (given .rv32 0x1000 [(2, 0x2000)] [] 0x0 [(0x2000, 0xff), (0x2001, 0x82), (0x2002, 0xf3), (0x2003, 0x44), (0x2004, 0x55), (0x2005, 0x66), (0x2006, 0x77), (0x2007, 0x88)]) 0x12283
      (fun t => t.xNat 5) = some 0x44f382ff := by decide +kernel

/-- V33: `lbu x5, 0(x2)`. -/
theorem test_step_lbu :
    after (given .rv32 0x1000 [(2, 0x2000)] [] 0x0 [(0x2000, 0xff), (0x2001, 0x82), (0x2002, 0xf3), (0x2003, 0x44), (0x2004, 0x55), (0x2005, 0x66), (0x2006, 0x77), (0x2007, 0x88)]) 0x14283
      (fun t => t.xNat 5) = some 0xff := by decide +kernel

/-- V35: `lhu x5, 0(x2)`. -/
theorem test_step_lhu :
    after (given .rv32 0x1000 [(2, 0x2000)] [] 0x0 [(0x2000, 0xff), (0x2001, 0x82), (0x2002, 0xf3), (0x2003, 0x44), (0x2004, 0x55), (0x2005, 0x66), (0x2006, 0x77), (0x2007, 0x88)]) 0x15283
      (fun t => t.xNat 5) = some 0x82ff := by decide +kernel

/-- V46: `sb x3, 1(x2)`. -/
theorem test_step_sb :
    after (given .rv32 0x1000 [(2, 0x2000), (3, 0x12345678)] [] 0x0 [(0x2000, 0xff), (0x2001, 0x82), (0x2002, 0xf3), (0x2003, 0x44), (0x2004, 0x55), (0x2005, 0x66), (0x2006, 0x77), (0x2007, 0x88)]) 0x3100a3
      (fun t => t.bytesNat [0x2001]) = some 0x78 := by decide +kernel

/-- V47: `sh x3, 2(x2)`. -/
theorem test_step_sh :
    after (given .rv32 0x1000 [(2, 0x2000), (3, 0x12345678)] [] 0x0 [(0x2000, 0xff), (0x2001, 0x82), (0x2002, 0xf3), (0x2003, 0x44), (0x2004, 0x55), (0x2005, 0x66), (0x2006, 0x77), (0x2007, 0x88)]) 0x311123
      (fun t => t.bytesNat [0x2002, 0x2003]) = some 0x5678 := by decide +kernel

/-- V48: `sw x3, 4(x2)`. -/
theorem test_step_sw :
    after (given .rv32 0x1000 [(2, 0x2000), (3, 0x12345678)] [] 0x0 [(0x2000, 0xff), (0x2001, 0x82), (0x2002, 0xf3), (0x2003, 0x44), (0x2004, 0x55), (0x2005, 0x66), (0x2006, 0x77), (0x2007, 0x88)]) 0x312223
      (fun t => t.bytesNat [0x2004, 0x2005, 0x2006, 0x2007]) = some 0x12345678 := by decide +kernel

/-- V56: `addi x3, x1, -6`. -/
theorem test_step_addi :
    after (given .rv32 0x1000 [(1, 0x5), (26, 0xea1a1a1a)] [] 0x0 []) 0xffa08193
      (fun t => t.xNat 3) = some 0xffffffff := by decide +kernel

/-- V62: `slti x3, x1, 0`. -/
theorem test_step_slti :
    after (given .rv32 0x1000 [(1, 0xffffffff)] [] 0x0 []) 0xa193
      (fun t => t.xNat 3) = some 0x1 := by decide +kernel

/-- V65: `sltiu x3, x1, -1`. -/
theorem test_step_sltiu :
    after (given .rv32 0x1000 [(1, 0xfffffffe), (31, 0xef1f1f1f)] [] 0x0 []) 0xfff0b193
      (fun t => t.xNat 3) = some 0x1 := by decide +kernel

/-- V69: `xori x3, x1, -1`. -/
theorem test_step_xori :
    after (given .rv32 0x1000 [(1, 0xf0f0f0f), (31, 0xef1f1f1f)] [] 0x0 []) 0xfff0c193
      (fun t => t.xNat 3) = some 0xf0f0f0f0 := by decide +kernel

/-- V71: `ori x3, x1, -256`. -/
theorem test_step_ori :
    after (given .rv32 0x1000 [(1, 0x100)] [] 0x0 []) 0xf000e193
      (fun t => t.xNat 3) = some 0xffffff00 := by decide +kernel

/-- V72: `andi x3, x1, 255`. -/
theorem test_step_andi :
    after (given .rv32 0x1000 [(1, 0x12345678), (31, 0xef1f1f1f)] [] 0x0 []) 0xff0f193
      (fun t => t.xNat 3) = some 0x78 := by decide +kernel

/-- V74: `slli x3, x1, 31`. -/
theorem test_step_slli32 :
    after (given .rv32 0x1000 [(1, 0x1), (31, 0xef1f1f1f)] [] 0x0 []) 0x1f09193
      (fun t => t.xNat 3) = some 0x80000000 := by decide +kernel

/-- V78: `srli x3, x1, 4`. -/
theorem test_step_srli32 :
    after (given .rv32 0x1000 [(1, 0xf0000000), (4, 0xd4040404)] [] 0x0 []) 0x40d193
      (fun t => t.xNat 3) = some 0xf000000 := by decide +kernel

/-- V79: `srai x3, x1, 31`. -/
theorem test_step_srai32 :
    after (given .rv32 0x1000 [(1, 0x80000000), (31, 0xef1f1f1f)] [] 0x0 []) 0x41f0d193
      (fun t => t.xNat 3) = some 0xffffffff := by decide +kernel

/-- V84: `add x1, x1, x1`. -/
theorem test_step_add :
    after (given .rv32 0x1000 [(1, 0x3)] [] 0x0 []) 0x1080b3
      (fun t => t.xNat 1) = some 0x6 := by decide +kernel

/-- V85: `sub x3, x1, x2`. -/
theorem test_step_sub :
    after (given .rv32 0x1000 [(1, 0x0), (2, 0x1)] [] 0x0 []) 0x402081b3
      (fun t => t.xNat 3) = some 0xffffffff := by decide +kernel

/-- V87: `sll x3, x1, x2`. -/
theorem test_step_sll :
    after (given .rv32 0x1000 [(1, 0x1), (2, 0x21)] [] 0x0 []) 0x2091b3
      (fun t => t.xNat 3) = some 0x2 := by decide +kernel

/-- V89: `slt x3, x1, x2`. -/
theorem test_step_slt :
    after (given .rv32 0x1000 [(1, 0x80000000), (2, 0x7fffffff)] [] 0x0 []) 0x20a1b3
      (fun t => t.xNat 3) = some 0x1 := by decide +kernel

/-- V90: `sltu x3, x1, x2`. -/
theorem test_step_sltu :
    after (given .rv32 0x1000 [(1, 0x80000000), (2, 0x7fffffff)] [] 0x0 []) 0x20b1b3
      (fun t => t.xNat 3) = some 0x0 := by decide +kernel

/-- V92: `xor x3, x1, x2`. -/
theorem test_step_xor :
    after (given .rv32 0x1000 [(1, 0xff00ff00), (2, 0xff00ff0)] [] 0x0 []) 0x20c1b3
      (fun t => t.xNat 3) = some 0xf0f0f0f0 := by decide +kernel

/-- V93: `srl x3, x1, x2`. -/
theorem test_step_srl :
    after (given .rv32 0x1000 [(1, 0x80000000), (2, 0xffffffe4)] [] 0x0 []) 0x20d1b3
      (fun t => t.xNat 3) = some 0x8000000 := by decide +kernel

/-- V94: `sra x3, x1, x2`. -/
theorem test_step_sra :
    after (given .rv32 0x1000 [(1, 0x80000000), (2, 0xffffffe4)] [] 0x0 []) 0x4020d1b3
      (fun t => t.xNat 3) = some 0xf8000000 := by decide +kernel

/-- V96: `or x3, x1, x2`. -/
theorem test_step_or :
    after (given .rv32 0x1000 [(1, 0xff00ff00), (2, 0xff00ff0)] [] 0x0 []) 0x20e1b3
      (fun t => t.xNat 3) = some 0xfff0fff0 := by decide +kernel

/-- V97: `and x3, x1, x2`. -/
theorem test_step_and :
    after (given .rv32 0x1000 [(1, 0xff00ff00), (2, 0xff00ff0)] [] 0x0 []) 0x20f1b3
      (fun t => t.xNat 3) = some 0xf000f00 := by decide +kernel

/-- V98: `fence rw, rw`. -/
theorem test_step_fence :
    after (given .rv32 0x1000 [(19, 0xe3131313)] [] 0x0 []) 0x330000f
      (fun t => t.pc) = some 0x1004 := by decide +kernel

/-- V103: `fence.i`. -/
theorem test_step_fenceI :
    after (given .rv32 0x1000 [] [] 0x0 []) 0x100f
      (fun t => t.pc) = some 0x1004 := by decide +kernel

/-- V105: `lwu x5, 0(x2)`. -/
theorem test_step_lwu :
    after (given .rv64 0x1000 [(2, 0x2004)] [] 0x0 [(0x2000, 0xff), (0x2001, 0x82), (0x2002, 0xf3), (0x2003, 0x44), (0x2004, 0x55), (0x2005, 0x66), (0x2006, 0x77), (0x2007, 0x88)]) 0x16283
      (fun t => t.xNat 5) = some 0x88776655 := by decide +kernel

/-- V106: `ld x5, 0(x2)`. -/
theorem test_step_ld :
    after (given .rv64 0x1000 [(2, 0x2000)] [] 0x0 [(0x2000, 0xff), (0x2001, 0x82), (0x2002, 0xf3), (0x2003, 0x44), (0x2004, 0x55), (0x2005, 0x66), (0x2006, 0x77), (0x2007, 0x88)]) 0x13283
      (fun t => t.xNat 5) = some 0x8877665544f382ff := by decide +kernel

/-- V111: `sd x3, 0(x2)`. -/
theorem test_step_sd :
    after (given .rv64 0x1000 [(2, 0x2000), (3, 0x1122334455667788)] [] 0x0 [(0x2000, 0xff), (0x2001, 0x82), (0x2002, 0xf3), (0x2003, 0x44), (0x2004, 0x55), (0x2005, 0x66), (0x2006, 0x77), (0x2007, 0x88)]) 0x313023
      (fun t => t.bytesNat [0x2000, 0x2001, 0x2002, 0x2003, 0x2004, 0x2005, 0x2006, 0x2007]) = some 0x1122334455667788 := by decide +kernel

/-- V113: `slli x3, x1, 63`. -/
theorem test_step_slli64 :
    after (given .rv64 0x1000 [(1, 0x1), (31, 0xfdcc1f1fde0e1f1f)] [] 0x0 []) 0x3f09193
      (fun t => t.xNat 3) = some 0x8000000000000000 := by decide +kernel

/-- V116: `srli x3, x1, 4`. -/
theorem test_step_srli64 :
    after (given .rv64 0x1000 [(1, 0x8000000000000010), (4, 0xe2b10404c2f30404)] [] 0x0 []) 0x40d193
      (fun t => t.xNat 3) = some 0x800000000000001 := by decide +kernel

/-- V117: `srai x3, x1, 63`. -/
theorem test_step_srai64 :
    after (given .rv64 0x1000 [(1, 0x8000000000000000), (31, 0xfdcc1f1fde0e1f1f)] [] 0x0 []) 0x43f0d193
      (fun t => t.xNat 3) = some 0xffffffffffffffff := by decide +kernel

/-- V119: `addiw x3, x1, 1`. -/
theorem test_step_addiw :
    after (given .rv64 0x1000 [(1, 0x7fffffff)] [] 0x0 []) 0x10819b
      (fun t => t.xNat 3) = some 0xffffffff80000000 := by decide +kernel

/-- V122: `slliw x3, x1, 31`. -/
theorem test_step_slliw :
    after (given .rv64 0x1000 [(1, 0x1), (31, 0xfdcc1f1fde0e1f1f)] [] 0x0 []) 0x1f0919b
      (fun t => t.xNat 3) = some 0xffffffff80000000 := by decide +kernel

/-- V125: `srliw x3, x1, 0`. -/
theorem test_step_srliw :
    after (given .rv64 0x1000 [(1, 0x1234567880000010)] [] 0x0 []) 0xd19b
      (fun t => t.xNat 3) = some 0xffffffff80000010 := by decide +kernel

/-- V126: `sraiw x3, x1, 4`. -/
theorem test_step_sraiw :
    after (given .rv64 0x1000 [(1, 0x1234567880000010), (4, 0xe2b10404c2f30404)] [] 0x0 []) 0x4040d19b
      (fun t => t.xNat 3) = some 0xfffffffff8000001 := by decide +kernel

/-- V128: `addw x3, x1, x2`. -/
theorem test_step_addw :
    after (given .rv64 0x1000 [(1, 0x7fffffff), (2, 0x1)] [] 0x0 []) 0x2081bb
      (fun t => t.xNat 3) = some 0xffffffff80000000 := by decide +kernel

/-- V130: `subw x3, x1, x2`. -/
theorem test_step_subw :
    after (given .rv64 0x1000 [(1, 0x80000000), (2, 0x1)] [] 0x0 []) 0x402081bb
      (fun t => t.xNat 3) = some 0x7fffffff := by decide +kernel

/-- V132: `sllw x3, x1, x2`. -/
theorem test_step_sllw :
    after (given .rv64 0x1000 [(1, 0x1), (2, 0x3f)] [] 0x0 []) 0x2091bb
      (fun t => t.xNat 3) = some 0xffffffff80000000 := by decide +kernel

/-- V134: `srlw x3, x1, x2`. -/
theorem test_step_srlw :
    after (given .rv64 0x1000 [(1, 0xffffffff80000000), (2, 0x24)] [] 0x0 []) 0x20d1bb
      (fun t => t.xNat 3) = some 0x8000000 := by decide +kernel

/-- V135: `sraw x3, x1, x2`. -/
theorem test_step_sraw :
    after (given .rv64 0x1000 [(1, 0x80000000), (2, 0x24)] [] 0x0 []) 0x4020d1bb
      (fun t => t.xNat 3) = some 0xfffffffff8000000 := by decide +kernel

/-- V139: `mul x3, x1, x2`. -/
theorem test_step_mul :
    after (given .rv32 0x1000 [(1, 0x7), (2, 0xfffffffd)] [] 0x0 []) 0x22081b3
      (fun t => t.xNat 3) = some 0xffffffeb := by decide +kernel

/-- V142: `mulh x3, x1, x2`. -/
theorem test_step_mulh :
    after (given .rv32 0x1000 [(1, 0x80000000), (2, 0x80000000)] [] 0x0 []) 0x22091b3
      (fun t => t.xNat 3) = some 0x40000000 := by decide +kernel

/-- V143: `mulhsu x3, x1, x2`. -/
theorem test_step_mulhsu :
    after (given .rv32 0x1000 [(1, 0xffffffff), (2, 0xffffffff)] [] 0x0 []) 0x220a1b3
      (fun t => t.xNat 3) = some 0xffffffff := by decide +kernel

/-- V145: `mulhu x3, x1, x2`. -/
theorem test_step_mulhu :
    after (given .rv32 0x1000 [(1, 0xffffffff), (2, 0xffffffff)] [] 0x0 []) 0x220b1b3
      (fun t => t.xNat 3) = some 0xfffffffe := by decide +kernel

/-- V146: `div x3, x1, x2`. -/
theorem test_step_div :
    after (given .rv32 0x1000 [(1, 0xfffffff9), (2, 0x2)] [] 0x0 []) 0x220c1b3
      (fun t => t.xNat 3) = some 0xfffffffd := by decide +kernel

/-- V150: `divu x3, x1, x2`. -/
theorem test_step_divu :
    after (given .rv32 0x1000 [(1, 0x5), (2, 0x0)] [] 0x0 []) 0x220d1b3
      (fun t => t.xNat 3) = some 0xffffffff := by decide +kernel

/-- V147: `rem x3, x1, x2`. -/
theorem test_step_rem :
    after (given .rv32 0x1000 [(1, 0xfffffff9), (2, 0x2)] [] 0x0 []) 0x220e1b3
      (fun t => t.xNat 3) = some 0xffffffff := by decide +kernel

/-- V152: `remu x3, x1, x2`. -/
theorem test_step_remu :
    after (given .rv32 0x1000 [(1, 0x5), (2, 0x0)] [] 0x0 []) 0x220f1b3
      (fun t => t.xNat 3) = some 0x5 := by decide +kernel

/-- V176: `mulw x3, x1, x2`. -/
theorem test_step_mulw :
    after (given .rv64 0x1000 [(1, 0x100000003), (2, 0x200000005)] [] 0x0 []) 0x22081bb
      (fun t => t.xNat 3) = some 0xf := by decide +kernel

/-- V178: `divw x3, x1, x2`. -/
theorem test_step_divw :
    after (given .rv64 0x1000 [(1, 0xfffffff9), (2, 0x2)] [] 0x0 []) 0x220c1bb
      (fun t => t.xNat 3) = some 0xfffffffffffffffd := by decide +kernel

/-- V181: `divuw x3, x1, x2`. -/
theorem test_step_divuw :
    after (given .rv64 0x1000 [(1, 0xffffffff), (2, 0x2)] [] 0x0 []) 0x220d1bb
      (fun t => t.xNat 3) = some 0x7fffffff := by decide +kernel

/-- V184: `remw x3, x1, x2`. -/
theorem test_step_remw :
    after (given .rv64 0x1000 [(1, 0xfffffff9), (2, 0x2)] [] 0x0 []) 0x220e1bb
      (fun t => t.xNat 3) = some 0xffffffffffffffff := by decide +kernel

/-- V187: `remuw x3, x1, x2`. -/
theorem test_step_remuw :
    after (given .rv64 0x1000 [(1, 0xffffffff), (2, 0x10)] [] 0x0 []) 0x220f1bb
      (fun t => t.xNat 3) = some 0xf := by decide +kernel

/-- V190: `lr.w x5, (x2)`. -/
theorem test_step_lrW :
    after (given .rv32 0x1000 [(2, 0x2000)] [] 0x0 [(0x2000, 0x78), (0x2001, 0x56), (0x2002, 0x34), (0x2003, 0x92), (0x2004, 0x1), (0x2005, 0x0), (0x2006, 0x0), (0x2007, 0x80)]) 0x100122af
      (fun t => (t.xNat 5, t.reservation)) = some (0x92345678, some ⟨0x2000, 8⟩) := by decide +kernel

/-- V197: `sc.w x5, x3, (x2)`. -/
theorem test_step_scW :
    after (given .rv32 0x1000 [(2, 0x2000), (3, 0xdeadbeef)] [] 0x0 [(0x2000, 0x78), (0x2001, 0x56), (0x2002, 0x34), (0x2003, 0x92), (0x2004, 0x1), (0x2005, 0x0), (0x2006, 0x0), (0x2007, 0x80)]) 0x183122af
      (fun t => t.xNat 5) = some 0x1 := by decide +kernel

/-- V204: `amoswap.w x5, x3, (x2)`. -/
theorem test_step_amoswapW :
    after (given .rv32 0x1000 [(2, 0x2000), (3, 0x11111111)] [] 0x0 [(0x2000, 0x78), (0x2001, 0x56), (0x2002, 0x34), (0x2003, 0x92), (0x2004, 0x1), (0x2005, 0x0), (0x2006, 0x0), (0x2007, 0x80)]) 0x83122af
      (fun t => (t.xNat 5, t.bytesNat [0x2000, 0x2001, 0x2002, 0x2003, 0x2004, 0x2005, 0x2006, 0x2007])) = some (0x92345678, 0x8000000111111111) := by decide +kernel

/-- V205: `amoadd.w x5, x3, (x2)`. -/
theorem test_step_amoaddW :
    after (given .rv32 0x1000 [(2, 0x2000), (3, 0x70000000)] [] 0x0 [(0x2000, 0x78), (0x2001, 0x56), (0x2002, 0x34), (0x2003, 0x92), (0x2004, 0x1), (0x2005, 0x0), (0x2006, 0x0), (0x2007, 0x80)]) 0x3122af
      (fun t => (t.xNat 5, t.bytesNat [0x2000, 0x2001, 0x2002, 0x2003, 0x2004, 0x2005, 0x2006, 0x2007])) = some (0x92345678, 0x8000000102345678) := by decide +kernel

/-- V206: `amoxor.w x5, x3, (x2)`. -/
theorem test_step_amoxorW :
    after (given .rv32 0x1000 [(2, 0x2000), (3, 0xffffffff)] [] 0x0 [(0x2000, 0x78), (0x2001, 0x56), (0x2002, 0x34), (0x2003, 0x92), (0x2004, 0x1), (0x2005, 0x0), (0x2006, 0x0), (0x2007, 0x80)]) 0x203122af
      (fun t => (t.xNat 5, t.bytesNat [0x2000, 0x2001, 0x2002, 0x2003, 0x2004, 0x2005, 0x2006, 0x2007])) = some (0x92345678, 0x800000016dcba987) := by decide +kernel

/-- V207: `amoor.w x5, x3, (x2)`. -/
theorem test_step_amoorW :
    after (given .rv32 0x1000 [(2, 0x2000), (3, 0xf)] [] 0x0 [(0x2000, 0x78), (0x2001, 0x56), (0x2002, 0x34), (0x2003, 0x92), (0x2004, 0x1), (0x2005, 0x0), (0x2006, 0x0), (0x2007, 0x80)]) 0x403122af
      (fun t => (t.xNat 5, t.bytesNat [0x2000, 0x2001, 0x2002, 0x2003, 0x2004, 0x2005, 0x2006, 0x2007])) = some (0x92345678, 0x800000019234567f) := by decide +kernel

/-- V208: `amoand.w x5, x3, (x2)`. -/
theorem test_step_amoandW :
    after (given .rv32 0x1000 [(2, 0x2000), (3, 0xffff0000)] [] 0x0 [(0x2000, 0x78), (0x2001, 0x56), (0x2002, 0x34), (0x2003, 0x92), (0x2004, 0x1), (0x2005, 0x0), (0x2006, 0x0), (0x2007, 0x80)]) 0x603122af
      (fun t => (t.xNat 5, t.bytesNat [0x2000, 0x2001, 0x2002, 0x2003, 0x2004, 0x2005, 0x2006, 0x2007])) = some (0x92345678, 0x8000000192340000) := by decide +kernel

/-- V209: `amomin.w x5, x3, (x2)`. -/
theorem test_step_amominW :
    after (given .rv32 0x1000 [(2, 0x2000), (3, 0x1)] [] 0x0 [(0x2000, 0x78), (0x2001, 0x56), (0x2002, 0x34), (0x2003, 0x92), (0x2004, 0x1), (0x2005, 0x0), (0x2006, 0x0), (0x2007, 0x80)]) 0x803122af
      (fun t => (t.xNat 5, t.bytesNat [0x2000, 0x2001, 0x2002, 0x2003, 0x2004, 0x2005, 0x2006, 0x2007])) = some (0x92345678, 0x8000000192345678) := by decide +kernel

/-- V210: `amomax.w x5, x3, (x2)`. -/
theorem test_step_amomaxW :
    after (given .rv32 0x1000 [(2, 0x2000), (3, 0x1)] [] 0x0 [(0x2000, 0x78), (0x2001, 0x56), (0x2002, 0x34), (0x2003, 0x92), (0x2004, 0x1), (0x2005, 0x0), (0x2006, 0x0), (0x2007, 0x80)]) 0xa03122af
      (fun t => (t.xNat 5, t.bytesNat [0x2000, 0x2001, 0x2002, 0x2003, 0x2004, 0x2005, 0x2006, 0x2007])) = some (0x92345678, 0x8000000100000001) := by decide +kernel

/-- V211: `amominu.w x5, x3, (x2)`. -/
theorem test_step_amominuW :
    after (given .rv32 0x1000 [(2, 0x2000), (3, 0x1)] [] 0x0 [(0x2000, 0x78), (0x2001, 0x56), (0x2002, 0x34), (0x2003, 0x92), (0x2004, 0x1), (0x2005, 0x0), (0x2006, 0x0), (0x2007, 0x80)]) 0xc03122af
      (fun t => (t.xNat 5, t.bytesNat [0x2000, 0x2001, 0x2002, 0x2003, 0x2004, 0x2005, 0x2006, 0x2007])) = some (0x92345678, 0x8000000100000001) := by decide +kernel

/-- V212: `amomaxu.w x5, x3, (x2)`. -/
theorem test_step_amomaxuW :
    after (given .rv32 0x1000 [(2, 0x2000), (3, 0x1)] [] 0x0 [(0x2000, 0x78), (0x2001, 0x56), (0x2002, 0x34), (0x2003, 0x92), (0x2004, 0x1), (0x2005, 0x0), (0x2006, 0x0), (0x2007, 0x80)]) 0xe03122af
      (fun t => (t.xNat 5, t.bytesNat [0x2000, 0x2001, 0x2002, 0x2003, 0x2004, 0x2005, 0x2006, 0x2007])) = some (0x92345678, 0x8000000192345678) := by decide +kernel

/-- V221: `lr.d x5, (x2)`. -/
theorem test_step_lrD :
    after (given .rv64 0x1000 [(2, 0x2000)] [] 0x0 [(0x2000, 0x78), (0x2001, 0x56), (0x2002, 0x34), (0x2003, 0x92), (0x2004, 0x1), (0x2005, 0x0), (0x2006, 0x0), (0x2007, 0x80)]) 0x100132af
      (fun t => (t.xNat 5, t.reservation)) = some (0x8000000192345678, some ⟨0x2000, 8⟩) := by decide +kernel

/-- V226: `sc.d x5, x3, (x2)`. -/
theorem test_step_scD :
    after (given .rv64 0x1000 [(2, 0x2000), (3, 0x1)] [] 0x0 [(0x2000, 0x78), (0x2001, 0x56), (0x2002, 0x34), (0x2003, 0x92), (0x2004, 0x1), (0x2005, 0x0), (0x2006, 0x0), (0x2007, 0x80)]) 0x183132af
      (fun t => t.xNat 5) = some 0x1 := by decide +kernel

/-- V227: `amoswap.d x5, x3, (x2)`. -/
theorem test_step_amoswapD :
    after (given .rv64 0x1000 [(2, 0x2000), (3, 0x1111111111111111)] [] 0x0 [(0x2000, 0x78), (0x2001, 0x56), (0x2002, 0x34), (0x2003, 0x92), (0x2004, 0x1), (0x2005, 0x0), (0x2006, 0x0), (0x2007, 0x80)]) 0x83132af
      (fun t => (t.xNat 5, t.bytesNat [0x2000, 0x2001, 0x2002, 0x2003, 0x2004, 0x2005, 0x2006, 0x2007])) = some (0x8000000192345678, 0x1111111111111111) := by decide +kernel

/-- V228: `amoadd.d x5, x3, (x2)`. -/
theorem test_step_amoaddD :
    after (given .rv64 0x1000 [(2, 0x2000), (3, 0x7fffffff00000000)] [] 0x0 [(0x2000, 0x78), (0x2001, 0x56), (0x2002, 0x34), (0x2003, 0x92), (0x2004, 0x1), (0x2005, 0x0), (0x2006, 0x0), (0x2007, 0x80)]) 0x3132af
      (fun t => (t.xNat 5, t.bytesNat [0x2000, 0x2001, 0x2002, 0x2003, 0x2004, 0x2005, 0x2006, 0x2007])) = some (0x8000000192345678, 0x92345678) := by decide +kernel

/-- V229: `amoxor.d x5, x3, (x2)`. -/
theorem test_step_amoxorD :
    after (given .rv64 0x1000 [(2, 0x2000), (3, 0xffffffffffffffff)] [] 0x0 [(0x2000, 0x78), (0x2001, 0x56), (0x2002, 0x34), (0x2003, 0x92), (0x2004, 0x1), (0x2005, 0x0), (0x2006, 0x0), (0x2007, 0x80)]) 0x203132af
      (fun t => (t.xNat 5, t.bytesNat [0x2000, 0x2001, 0x2002, 0x2003, 0x2004, 0x2005, 0x2006, 0x2007])) = some (0x8000000192345678, 0x7ffffffe6dcba987) := by decide +kernel

/-- V230: `amoor.d x5, x3, (x2)`. -/
theorem test_step_amoorD :
    after (given .rv64 0x1000 [(2, 0x2000), (3, 0xf)] [] 0x0 [(0x2000, 0x78), (0x2001, 0x56), (0x2002, 0x34), (0x2003, 0x92), (0x2004, 0x1), (0x2005, 0x0), (0x2006, 0x0), (0x2007, 0x80)]) 0x403132af
      (fun t => (t.xNat 5, t.bytesNat [0x2000, 0x2001, 0x2002, 0x2003, 0x2004, 0x2005, 0x2006, 0x2007])) = some (0x8000000192345678, 0x800000019234567f) := by decide +kernel

/-- V231: `amoand.d x5, x3, (x2)`. -/
theorem test_step_amoandD :
    after (given .rv64 0x1000 [(2, 0x2000), (3, 0xffffffff00000000)] [] 0x0 [(0x2000, 0x78), (0x2001, 0x56), (0x2002, 0x34), (0x2003, 0x92), (0x2004, 0x1), (0x2005, 0x0), (0x2006, 0x0), (0x2007, 0x80)]) 0x603132af
      (fun t => (t.xNat 5, t.bytesNat [0x2000, 0x2001, 0x2002, 0x2003, 0x2004, 0x2005, 0x2006, 0x2007])) = some (0x8000000192345678, 0x8000000100000000) := by decide +kernel

/-- V232: `amomin.d x5, x3, (x2)`. -/
theorem test_step_amominD :
    after (given .rv64 0x1000 [(2, 0x2000), (3, 0x1)] [] 0x0 [(0x2000, 0x78), (0x2001, 0x56), (0x2002, 0x34), (0x2003, 0x92), (0x2004, 0x1), (0x2005, 0x0), (0x2006, 0x0), (0x2007, 0x80)]) 0x803132af
      (fun t => (t.xNat 5, t.bytesNat [0x2000, 0x2001, 0x2002, 0x2003, 0x2004, 0x2005, 0x2006, 0x2007])) = some (0x8000000192345678, 0x8000000192345678) := by decide +kernel

/-- V233: `amomax.d x5, x3, (x2)`. -/
theorem test_step_amomaxD :
    after (given .rv64 0x1000 [(2, 0x2000), (3, 0x1)] [] 0x0 [(0x2000, 0x78), (0x2001, 0x56), (0x2002, 0x34), (0x2003, 0x92), (0x2004, 0x1), (0x2005, 0x0), (0x2006, 0x0), (0x2007, 0x80)]) 0xa03132af
      (fun t => (t.xNat 5, t.bytesNat [0x2000, 0x2001, 0x2002, 0x2003, 0x2004, 0x2005, 0x2006, 0x2007])) = some (0x8000000192345678, 0x1) := by decide +kernel

/-- V234: `amominu.d x5, x3, (x2)`. -/
theorem test_step_amominuD :
    after (given .rv64 0x1000 [(2, 0x2000), (3, 0x1)] [] 0x0 [(0x2000, 0x78), (0x2001, 0x56), (0x2002, 0x34), (0x2003, 0x92), (0x2004, 0x1), (0x2005, 0x0), (0x2006, 0x0), (0x2007, 0x80)]) 0xc03132af
      (fun t => (t.xNat 5, t.bytesNat [0x2000, 0x2001, 0x2002, 0x2003, 0x2004, 0x2005, 0x2006, 0x2007])) = some (0x8000000192345678, 0x1) := by decide +kernel

/-- V235: `amomaxu.d x5, x3, (x2)`. -/
theorem test_step_amomaxuD :
    after (given .rv64 0x1000 [(2, 0x2000), (3, 0x1)] [] 0x0 [(0x2000, 0x78), (0x2001, 0x56), (0x2002, 0x34), (0x2003, 0x92), (0x2004, 0x1), (0x2005, 0x0), (0x2006, 0x0), (0x2007, 0x80)]) 0xe03132af
      (fun t => (t.xNat 5, t.bytesNat [0x2000, 0x2001, 0x2002, 0x2003, 0x2004, 0x2005, 0x2006, 0x2007])) = some (0x8000000192345678, 0x8000000192345678) := by decide +kernel

/-- V239: `flw f1, 0(x2)`. -/
theorem test_step_flw :
    after (given .rv32 0x1000 [(2, 0x2000)] [(0, 0x7ff0dead00000000), (2, 0x81f2e0af02020202)] 0x0 [(0x2000, 0xff), (0x2001, 0x82), (0x2002, 0xf3), (0x2003, 0x44), (0x2004, 0x55), (0x2005, 0x66), (0x2006, 0x77), (0x2007, 0x88)]) 0x12087
      (fun t => t.rF 1) = some 0xffffffff44f382ff := by decide +kernel

/-- V242: `fsw f1, 4(x2)`. -/
theorem test_step_fsw :
    after (given .rv32 0x1000 [(1, 0xd1010101), (2, 0x2000)] [(0, 0x7ff0dead00000000), (1, 0xffffffff3f800000), (2, 0x81f2e0af02020202)] 0x0 [(0x2000, 0xff), (0x2001, 0x82), (0x2002, 0xf3), (0x2003, 0x44), (0x2004, 0x55), (0x2005, 0x66), (0x2006, 0x77), (0x2007, 0x88)]) 0x112227
      (fun t => t.bytesNat [0x2004, 0x2005, 0x2006, 0x2007]) = some 0x3f800000 := by decide +kernel

/-- V245: `fmadd.s f4, f1, f2, f3, rne`. -/
theorem test_step_fmaddS :
    after (given .rv32 0x1000 [(1, 0xd1010101), (2, 0xd2020202)] [(1, 0xffffffff40000000), (2, 0xffffffff40400000), (3, 0xffffffff3f800000)] 0x0 []) 0x18208243
      (fun t => (t.rF 4, t.fflags)) = some (0xffffffff40e00000, 0x0) := by decide +kernel

/-- V246: `fmsub.s f4, f1, f2, f3, rne`. -/
theorem test_step_fmsubS :
    after (given .rv32 0x1000 [(1, 0xd1010101), (2, 0xd2020202)] [(1, 0xffffffff40000000), (2, 0xffffffff40400000), (3, 0xffffffff3f800000)] 0x0 []) 0x18208247
      (fun t => (t.rF 4, t.fflags)) = some (0xffffffff40a00000, 0x0) := by decide +kernel

/-- V247: `fnmsub.s f4, f1, f2, f3, rne`. -/
theorem test_step_fnmsubS :
    after (given .rv32 0x1000 [(1, 0xd1010101), (2, 0xd2020202)] [(1, 0xffffffff40000000), (2, 0xffffffff40400000), (3, 0xffffffff3f800000)] 0x0 []) 0x1820824b
      (fun t => (t.rF 4, t.fflags)) = some (0xffffffffc0a00000, 0x0) := by decide +kernel

/-- V248: `fnmadd.s f4, f1, f2, f3, rne`. -/
theorem test_step_fnmaddS :
    after (given .rv32 0x1000 [(1, 0xd1010101), (2, 0xd2020202)] [(1, 0xffffffff40000000), (2, 0xffffffff40400000), (3, 0xffffffff3f800000)] 0x0 []) 0x1820824f
      (fun t => (t.rF 4, t.fflags)) = some (0xffffffffc0e00000, 0x0) := by decide +kernel

/-- V253: `fadd.s f3, f1, f2, rne`. -/
theorem test_step_faddS :
    after (given .rv32 0x1000 [(1, 0xd1010101), (2, 0xd2020202)] [(0, 0x7ff0dead00000000), (1, 0xffffffff3dcccccd), (2, 0xffffffff3e4ccccd)] 0x0 []) 0x2081d3
      (fun t => (t.rF 3, t.fflags)) = some (0xffffffff3e99999a, 0x1) := by decide +kernel

/-- V272: `fsub.s f3, f1, f2, rne`. -/
theorem test_step_fsubS :
    after (given .rv32 0x1000 [(1, 0xd1010101), (2, 0xd2020202)] [(1, 0xffffffff3f800000), (2, 0xffffffff3dcccccd)] 0x0 []) 0x82081d3
      (fun t => (t.rF 3, t.fflags)) = some (0xffffffff3f666666, 0x1) := by decide +kernel

/-- V274: `fmul.s f3, f1, f2, rne`. -/
theorem test_step_fmulS :
    after (given .rv32 0x1000 [(1, 0xd1010101), (2, 0xd2020202)] [(1, 0xffffffff40400000), (2, 0xffffffff3dcccccd)] 0x0 []) 0x102081d3
      (fun t => (t.rF 3, t.fflags)) = some (0xffffffff3e99999a, 0x1) := by decide +kernel

/-- V282: `fdiv.s f3, f1, f2, rne`. -/
theorem test_step_fdivS :
    after (given .rv32 0x1000 [(1, 0xd1010101), (2, 0xd2020202)] [(1, 0xffffffff3f800000), (2, 0xffffffff40400000), (3, 0x82f3e1b003030303)] 0x0 []) 0x182081d3
      (fun t => (t.rF 3, t.fflags)) = some (0xffffffff3eaaaaab, 0x1) := by decide +kernel

/-- V292: `fsgnj.s f3, f1, f2`. -/
theorem test_step_fsgnjS :
    after (given .rv32 0x1000 [(1, 0xd1010101), (2, 0xd2020202)] [(1, 0xffffffff3f800000), (2, 0xffffffffc0000000), (4, 0x83f4e2b104040404)] 0x0 []) 0x202081d3
      (fun t => (t.rF 3, t.fflags)) = some (0xffffffffbf800000, 0x0) := by decide +kernel

/-- V294: `fsgnjn.s f3, f1, f2`. -/
theorem test_step_fsgnjnS :
    after (given .rv32 0x1000 [(1, 0xd1010101), (2, 0xd2020202)] [(1, 0xffffffff3f800000), (2, 0xffffffffc0000000), (4, 0x83f4e2b104040404)] 0x0 []) 0x202091d3
      (fun t => (t.rF 3, t.fflags)) = some (0xffffffff3f800000, 0x0) := by decide +kernel

/-- V296: `fsgnjx.s f3, f1, f2`. -/
theorem test_step_fsgnjxS :
    after (given .rv32 0x1000 [(1, 0xd1010101), (2, 0xd2020202)] [(1, 0xffffffff3f800000), (2, 0xffffffffc0000000), (4, 0x83f4e2b104040404)] 0x0 []) 0x2020a1d3
      (fun t => (t.rF 3, t.fflags)) = some (0xffffffffbf800000, 0x0) := by decide +kernel

/-- V305: `fmin.s f3, f1, f2`. -/
theorem test_step_fminS :
    after (given .rv32 0x1000 [(1, 0xd1010101), (2, 0xd2020202)] [(1, 0xffffffff7f800001), (2, 0xffffffff3f800000), (5, 0x84f5e3b205050505)] 0x0 []) 0x282081d3
      (fun t => (t.rF 3, t.fflags)) = some (0xffffffff3f800000, 0x10) := by decide +kernel

/-- V310: `fmax.s f3, f1, f2`. -/
theorem test_step_fmaxS :
    after (given .rv32 0x1000 [(1, 0xd1010101), (2, 0xd2020202)] [(1, 0xffffffff7f800001), (2, 0xffffffff3f800000), (5, 0x84f5e3b205050505)] 0x0 []) 0x282091d3
      (fun t => (t.rF 3, t.fflags)) = some (0xffffffff3f800000, 0x10) := by decide +kernel

/-- V287: `fsqrt.s f3, f1, rne`. -/
theorem test_step_fsqrtS :
    after (given .rv32 0x1000 [(1, 0xd1010101)] [(0, 0x7ff0dead00000000), (1, 0xffffffff40000000), (11, 0x8afbe9b80b0b0b0b)] 0x0 []) 0x580081d3
      (fun t => (t.rF 3, t.fflags)) = some (0xffffffff3fb504f3, 0x1) := by decide +kernel

/-- V315: `fle.s x5, f1, f2`. -/
theorem test_step_fleS :
    after (given .rv32 0x1000 [(1, 0xd1010101), (2, 0xd2020202)] [(1, 0xffffffff7fc00000), (2, 0xffffffff3f800000), (20, 0x9404f2c114141414)] 0x0 []) 0xa02082d3
      (fun t => (t.xNat 5, t.fflags)) = some (0x0, 0x10) := by decide +kernel

/-- V320: `flt.s x5, f1, f2`. -/
theorem test_step_fltS :
    after (given .rv32 0x1000 [(1, 0xd1010101), (2, 0xd2020202)] [(1, 0xffffffff7fc00000), (2, 0xffffffff3f800000), (20, 0x9404f2c114141414)] 0x0 []) 0xa02092d3
      (fun t => (t.xNat 5, t.fflags)) = some (0x0, 0x10) := by decide +kernel

/-- V326: `feq.s x5, f1, f2`. -/
theorem test_step_feqS :
    after (given .rv32 0x1000 [(1, 0xd1010101), (2, 0xd2020202)] [(1, 0xffffffff7f800001), (2, 0xffffffff3f800000), (20, 0x9404f2c114141414)] 0x0 []) 0xa020a2d3
      (fun t => (t.xNat 5, t.fflags)) = some (0x0, 0x10) := by decide +kernel

/-- V328: `fcvt.w.s x5, f1, rne`. -/
theorem test_step_fcvtWS :
    after (given .rv32 0x1000 [(1, 0xd1010101)] [(0, 0x7ff0dead00000000), (1, 0xffffffff3fc00000), (24, 0x9808f6c518181818)] 0x0 []) 0xc00082d3
      (fun t => (t.xNat 5, t.fflags)) = some (0x2, 0x1) := by decide +kernel

/-- V339: `fcvt.wu.s x5, f1, rne`. -/
theorem test_step_fcvtWuS :
    after (given .rv32 0x1000 [(1, 0xd1010101)] [(1, 0xffffffff3fc00000), (24, 0x9808f6c518181818)] 0x0 []) 0xc01082d3
      (fun t => (t.xNat 5, t.fflags)) = some (0x2, 0x1) := by decide +kernel

/-- V349: `fcvt.s.w f3, x1, rne`. -/
theorem test_step_fcvtSW :
    after (given .rv32 0x1000 [(1, 0x1000001)] [(0, 0x7ff0dead00000000), (1, 0x80f1dfae01010101), (26, 0x9a0af8c71a1a1a1a)] 0x0 []) 0xd00081d3
      (fun t => (t.rF 3, t.fflags)) = some (0xffffffff4b800000, 0x1) := by decide +kernel

/-- V354: `fcvt.s.wu f3, x1, rne`. -/
theorem test_step_fcvtSWu :
    after (given .rv32 0x1000 [(1, 0xffffffff)] [(1, 0x80f1dfae01010101), (26, 0x9a0af8c71a1a1a1a)] 0x0 []) 0xd01081d3
      (fun t => (t.rF 3, t.fflags)) = some (0xffffffff4f800000, 0x1) := by decide +kernel

/-- V357: `fmv.x.s x5, f1`. -/
theorem test_step_fmvXS :
    after (given .rv32 0x1000 [(1, 0xd1010101)] [(0, 0x7ff0dead00000000), (1, 0xffffffffbf800000), (28, 0x9c0cfac91c1c1c1c)] 0x0 []) 0xe00082d3
      (fun t => (t.xNat 5, t.fflags)) = some (0xbf800000, 0x0) := by decide +kernel

/-- V395: `fclass.s x5, f1`. -/
theorem test_step_fclassS :
    after (given .rv32 0x1000 [(1, 0xd1010101)] [(0, 0x7ff0dead00000000), (1, 0xffffffffbf800000), (28, 0x9c0cfac91c1c1c1c)] 0x0 []) 0xe00092d3
      (fun t => (t.xNat 5, t.fflags)) = some (0x2, 0x0) := by decide +kernel

/-- V359: `fmv.s.x f3, x1`. -/
theorem test_step_fmvSX :
    after (given .rv32 0x1000 [(1, 0xffc00001)] [(0, 0x7ff0dead00000000), (1, 0x80f1dfae01010101), (30, 0x9e0efccb1e1e1e1e)] 0x0 []) 0xf00081d3
      (fun t => (t.rF 3, t.fflags)) = some (0xffffffffffc00001, 0x0) := by decide +kernel

/-- V407: `fcvt.l.s x5, f1, rne`. -/
theorem test_step_fcvtLS :
    after (given .rv64 0x1000 [(1, 0xdfae0101bff00101), (2, 0xe0af0202c0f10202)] [(1, 0xffffffff3fc00000), (2, 0x81f2e0af02020202), (24, 0x9808f6c518181818)] 0x0 []) 0xc02082d3
      (fun t => (t.xNat 5, t.fflags)) = some (0x2, 0x1) := by decide +kernel

/-- V414: `fcvt.lu.s x5, f1, rne`. -/
theorem test_step_fcvtLuS :
    after (given .rv64 0x1000 [(1, 0xdfae0101bff00101), (3, 0xe1b00303c1f20303)] [(1, 0xffffffff5f800000), (3, 0x82f3e1b003030303), (24, 0x9808f6c518181818)] 0x0 []) 0xc03082d3
      (fun t => (t.xNat 5, t.fflags)) = some (0xffffffffffffffff, 0x10) := by decide +kernel

/-- V419: `fcvt.s.l f3, x1, rne`. -/
theorem test_step_fcvtSL :
    after (given .rv64 0x1000 [(1, 0x7fffffffffffffff), (2, 0xe0af0202c0f10202)] [(1, 0x80f1dfae01010101), (2, 0x81f2e0af02020202), (26, 0x9a0af8c71a1a1a1a)] 0x0 []) 0xd02081d3
      (fun t => (t.rF 3, t.fflags)) = some (0xffffffff5f000000, 0x1) := by decide +kernel

/-- V423: `fcvt.s.lu f3, x1, rne`. -/
theorem test_step_fcvtSLu :
    after (given .rv64 0x1000 [(1, 0xffffffffffffffff), (3, 0xe1b00303c1f20303)] [(1, 0x80f1dfae01010101), (3, 0x82f3e1b003030303), (26, 0x9a0af8c71a1a1a1a)] 0x0 []) 0xd03081d3
      (fun t => (t.rF 3, t.fflags)) = some (0xffffffff5f800000, 0x1) := by decide +kernel

/-- V427: `fld f1, 0(x2)`. -/
theorem test_step_fld :
    after (given .rv32 0x1000 [(2, 0x2000)] [(0, 0x7ff0dead00000000), (2, 0x81f2e0af02020202)] 0x0 [(0x2000, 0xff), (0x2001, 0x82), (0x2002, 0xf3), (0x2003, 0x44), (0x2004, 0x55), (0x2005, 0x66), (0x2006, 0x77), (0x2007, 0x88)]) 0x13087
      (fun t => t.rF 1) = some 0x8877665544f382ff := by decide +kernel

/-- V430: `fsd f1, 0(x2)`. -/
theorem test_step_fsd :
    after (given .rv32 0x1000 [(1, 0xd1010101), (2, 0x2000)] [(0, 0x7ff0dead00000000), (1, 0x3ff0000000000000), (2, 0x81f2e0af02020202)] 0x0 [(0x2000, 0xff), (0x2001, 0x82), (0x2002, 0xf3), (0x2003, 0x44), (0x2004, 0x55), (0x2005, 0x66), (0x2006, 0x77), (0x2007, 0x88)]) 0x113027
      (fun t => t.bytesNat [0x2000, 0x2001, 0x2002, 0x2003, 0x2004, 0x2005, 0x2006, 0x2007]) = some 0x3ff0000000000000 := by decide +kernel

/-- V437: `fmadd.d f4, f1, f2, f3, rne`. -/
theorem test_step_fmaddD :
    after (given .rv32 0x1000 [(1, 0xd1010101), (2, 0xd2020202)] [(1, 0x7ff0000000000000), (2, 0x0), (3, 0x7ff8000000000000)] 0x0 []) 0x1a208243
      (fun t => (t.rF 4, t.fflags)) = some (0x7ff8000000000000, 0x10) := by decide +kernel

/-- V433: `fmsub.d f4, f1, f2, f3, rne`. -/
theorem test_step_fmsubD :
    after (given .rv32 0x1000 [(1, 0xd1010101), (2, 0xd2020202)] [(1, 0x4000000000000000), (2, 0x4008000000000000), (3, 0x3ff0000000000000)] 0x0 []) 0x1a208247
      (fun t => (t.rF 4, t.fflags)) = some (0x4014000000000000, 0x0) := by decide +kernel

/-- V434: `fnmsub.d f4, f1, f2, f3, rne`. -/
theorem test_step_fnmsubD :
    after (given .rv32 0x1000 [(1, 0xd1010101), (2, 0xd2020202)] [(1, 0x4000000000000000), (2, 0x4008000000000000), (3, 0x3ff0000000000000)] 0x0 []) 0x1a20824b
      (fun t => (t.rF 4, t.fflags)) = some (0xc014000000000000, 0x0) := by decide +kernel

/-- V435: `fnmadd.d f4, f1, f2, f3, rne`. -/
theorem test_step_fnmaddD :
    after (given .rv32 0x1000 [(1, 0xd1010101), (2, 0xd2020202)] [(1, 0x4000000000000000), (2, 0x4008000000000000), (3, 0x3ff0000000000000)] 0x0 []) 0x1a20824f
      (fun t => (t.rF 4, t.fflags)) = some (0xc01c000000000000, 0x0) := by decide +kernel

/-- V438: `fadd.d f3, f1, f2, rne`. -/
theorem test_step_faddD :
    after (given .rv32 0x1000 [(1, 0xd1010101), (2, 0xd2020202)] [(0, 0x7ff0dead00000000), (1, 0x3fb999999999999a), (2, 0x3fc999999999999a)] 0x0 []) 0x22081d3
      (fun t => (t.rF 3, t.fflags)) = some (0x3fd3333333333334, 0x1) := by decide +kernel

/-- V449: `fsub.d f3, f1, f2, rne`. -/
theorem test_step_fsubD :
    after (given .rv32 0x1000 [(1, 0xd1010101), (2, 0xd2020202)] [(1, 0x3ff0000000000000), (2, 0x3fb999999999999a)] 0x0 []) 0xa2081d3
      (fun t => (t.rF 3, t.fflags)) = some (0x3feccccccccccccd, 0x1) := by decide +kernel

/-- V452: `fmul.d f3, f1, f2, rtz`. -/
theorem test_step_fmulD :
    after (given .rv32 0x1000 [(1, 0xd1010101), (2, 0xd2020202)] [(1, 0x7fefffffffffffff), (2, 0x4000000000000000)] 0x0 []) 0x122091d3
      (fun t => (t.rF 3, t.fflags)) = some (0x7fefffffffffffff, 0x5) := by decide +kernel

/-- V453: `fdiv.d f3, f1, f2, rne`. -/
theorem test_step_fdivD :
    after (given .rv32 0x1000 [(1, 0xd1010101), (2, 0xd2020202)] [(1, 0x3ff0000000000000), (2, 0x4008000000000000), (3, 0x82f3e1b003030303)] 0x0 []) 0x1a2081d3
      (fun t => (t.rF 3, t.fflags)) = some (0x3fd5555555555555, 0x1) := by decide +kernel

/-- V464: `fsgnj.d f3, f1, f1`. -/
theorem test_step_fsgnjD :
    after (given .rv32 0x1000 [(1, 0xd1010101)] [(1, 0xffffffff3f800000), (4, 0x83f4e2b104040404)] 0x0 []) 0x221081d3
      (fun t => (t.rF 3, t.fflags)) = some (0xffffffff3f800000, 0x0) := by decide +kernel

/-- V460: `fsgnjn.d f3, f1, f2`. -/
theorem test_step_fsgnjnD :
    after (given .rv32 0x1000 [(1, 0xd1010101), (2, 0xd2020202)] [(1, 0x3ff0000000000000), (2, 0xc000000000000000), (4, 0x83f4e2b104040404)] 0x0 []) 0x222091d3
      (fun t => (t.rF 3, t.fflags)) = some (0x3ff0000000000000, 0x0) := by decide +kernel

/-- V462: `fsgnjx.d f3, f1, f2`. -/
theorem test_step_fsgnjxD :
    after (given .rv32 0x1000 [(1, 0xd1010101), (2, 0xd2020202)] [(1, 0x3ff0000000000000), (2, 0xc000000000000000), (4, 0x83f4e2b104040404)] 0x0 []) 0x2220a1d3
      (fun t => (t.rF 3, t.fflags)) = some (0xbff0000000000000, 0x0) := by decide +kernel

/-- V468: `fmin.d f3, f1, f2`. -/
theorem test_step_fminD :
    after (given .rv32 0x1000 [(1, 0xd1010101), (2, 0xd2020202)] [(1, 0x7ff0000000000001), (2, 0x3ff0000000000000), (5, 0x84f5e3b205050505)] 0x0 []) 0x2a2081d3
      (fun t => (t.rF 3, t.fflags)) = some (0x3ff0000000000000, 0x10) := by decide +kernel

/-- V473: `fmax.d f3, f1, f2`. -/
theorem test_step_fmaxD :
    after (given .rv32 0x1000 [(1, 0xd1010101), (2, 0xd2020202)] [(1, 0x7ff0000000000001), (2, 0x3ff0000000000000), (5, 0x84f5e3b205050505)] 0x0 []) 0x2a2091d3
      (fun t => (t.rF 3, t.fflags)) = some (0x3ff0000000000000, 0x10) := by decide +kernel

/-- V456: `fsqrt.d f3, f1, rne`. -/
theorem test_step_fsqrtD :
    after (given .rv32 0x1000 [(1, 0xd1010101)] [(0, 0x7ff0dead00000000), (1, 0x4000000000000000), (11, 0x8afbe9b80b0b0b0b)] 0x0 []) 0x5a0081d3
      (fun t => (t.rF 3, t.fflags)) = some (0x3ff6a09e667f3bcd, 0x1) := by decide +kernel

/-- V477: `fle.d x5, f1, f2`. -/
theorem test_step_fleD :
    after (given .rv32 0x1000 [(1, 0xd1010101), (2, 0xd2020202)] [(1, 0x7ff8000000000000), (2, 0x3ff0000000000000), (20, 0x9404f2c114141414)] 0x0 []) 0xa22082d3
      (fun t => (t.xNat 5, t.fflags)) = some (0x0, 0x10) := by decide +kernel

/-- V481: `flt.d x5, f1, f2`. -/
theorem test_step_fltD :
    after (given .rv32 0x1000 [(1, 0xd1010101), (2, 0xd2020202)] [(1, 0x7ff8000000000000), (2, 0x3ff0000000000000), (20, 0x9404f2c114141414)] 0x0 []) 0xa22092d3
      (fun t => (t.xNat 5, t.fflags)) = some (0x0, 0x10) := by decide +kernel

/-- V486: `feq.d x5, f1, f2`. -/
theorem test_step_feqD :
    after (given .rv32 0x1000 [(1, 0xd1010101), (2, 0xd2020202)] [(1, 0x7ff0000000000001), (2, 0x3ff0000000000000), (20, 0x9404f2c114141414)] 0x0 []) 0xa220a2d3
      (fun t => (t.xNat 5, t.fflags)) = some (0x0, 0x10) := by decide +kernel

/-- V487: `fcvt.w.d x5, f1, rne`. -/
theorem test_step_fcvtWD :
    after (given .rv32 0x1000 [(1, 0xd1010101)] [(0, 0x7ff0dead00000000), (1, 0x3ff8000000000000), (24, 0x9808f6c518181818)] 0x0 []) 0xc20082d3
      (fun t => (t.xNat 5, t.fflags)) = some (0x2, 0x1) := by decide +kernel

/-- V498: `fcvt.wu.d x5, f1, rne`. -/
theorem test_step_fcvtWuD :
    after (given .rv32 0x1000 [(1, 0xd1010101)] [(1, 0x41f0000000000000), (24, 0x9808f6c518181818)] 0x0 []) 0xc21082d3
      (fun t => (t.xNat 5, t.fflags)) = some (0xffffffff, 0x10) := by decide +kernel

/-- V502: `fcvt.d.w f3, x1, rne`. -/
theorem test_step_fcvtDW :
    after (given .rv32 0x1000 [(1, 0xffffffff)] [(0, 0x7ff0dead00000000), (1, 0x80f1dfae01010101), (26, 0x9a0af8c71a1a1a1a)] 0x0 []) 0xd20081d3
      (fun t => (t.rF 3, t.fflags)) = some (0xbff0000000000000, 0x0) := by decide +kernel

/-- V504: `fcvt.d.wu f3, x1, rne`. -/
theorem test_step_fcvtDWu :
    after (given .rv32 0x1000 [(1, 0xffffffff)] [(1, 0x80f1dfae01010101), (26, 0x9a0af8c71a1a1a1a)] 0x0 []) 0xd21081d3
      (fun t => (t.rF 3, t.fflags)) = some (0x41efffffffe00000, 0x0) := by decide +kernel

/-- V525: `fclass.d x5, f1`. -/
theorem test_step_fclassD :
    after (given .rv32 0x1000 [(1, 0xd1010101)] [(0, 0x7ff0dead00000000), (1, 0xbff0000000000000), (28, 0x9c0cfac91c1c1c1c)] 0x0 []) 0xe20092d3
      (fun t => (t.xNat 5, t.fflags)) = some (0x2, 0x0) := by decide +kernel

/-- V538: `fcvt.l.d x5, f1, rne`. -/
theorem test_step_fcvtLD :
    after (given .rv64 0x1000 [(1, 0xdfae0101bff00101), (2, 0xe0af0202c0f10202)] [(1, 0x3ff8000000000000), (2, 0x81f2e0af02020202), (24, 0x9808f6c518181818)] 0x0 []) 0xc22082d3
      (fun t => (t.xNat 5, t.fflags)) = some (0x2, 0x1) := by decide +kernel

/-- V544: `fcvt.lu.d x5, f1, rne`. -/
theorem test_step_fcvtLuD :
    after (given .rv64 0x1000 [(1, 0xdfae0101bff00101), (3, 0xe1b00303c1f20303)] [(1, 0x43f0000000000000), (3, 0x82f3e1b003030303), (24, 0x9808f6c518181818)] 0x0 []) 0xc23082d3
      (fun t => (t.xNat 5, t.fflags)) = some (0xffffffffffffffff, 0x10) := by decide +kernel

/-- V551: `fcvt.d.l f3, x1, rtz`. -/
theorem test_step_fcvtDL :
    after (given .rv64 0x1000 [(1, 0x7fffffffffffffff), (2, 0xe0af0202c0f10202)] [(1, 0x80f1dfae01010101), (2, 0x81f2e0af02020202), (26, 0x9a0af8c71a1a1a1a)] 0x0 []) 0xd22091d3
      (fun t => (t.rF 3, t.fflags)) = some (0x43dfffffffffffff, 0x1) := by decide +kernel

/-- V555: `fcvt.d.lu f3, x1, rtz`. -/
theorem test_step_fcvtDLu :
    after (given .rv64 0x1000 [(1, 0xffffffffffffffff), (3, 0xe1b00303c1f20303)] [(1, 0x80f1dfae01010101), (3, 0x82f3e1b003030303), (26, 0x9a0af8c71a1a1a1a)] 0x0 []) 0xd23091d3
      (fun t => (t.rF 3, t.fflags)) = some (0x43efffffffffffff, 0x1) := by decide +kernel

/-- V557: `fmv.x.d x5, f1`. -/
theorem test_step_fmvXD :
    after (given .rv64 0x1000 [(1, 0xdfae0101bff00101)] [(0, 0x7ff0dead00000000), (1, 0x7ff0000000000001), (28, 0x9c0cfac91c1c1c1c)] 0x0 []) 0xe20082d3
      (fun t => (t.xNat 5, t.fflags)) = some (0x7ff0000000000001, 0x0) := by decide +kernel

/-- V559: `fmv.d.x f3, x1`. -/
theorem test_step_fmvDX :
    after (given .rv64 0x1000 [(1, 0x123456783f800000)] [(0, 0x7ff0dead00000000), (1, 0x80f1dfae01010101), (30, 0x9e0efccb1e1e1e1e)] 0x0 []) 0xf20081d3
      (fun t => (t.rF 3, t.fflags)) = some (0x123456783f800000, 0x0) := by decide +kernel

/-! ### Witnesses: states and operands that meet the hypotheses of the statements, clause by clause -/

/-- The bytes `ff 82 f3 44 55 66 77 88` at 0x2000, as in the examples of the spec. -/
def spread : List Host.Cell :=
  [(0x2000, 0xff), (0x2001, 0x82), (0x2002, 0xf3), (0x2003, 0x44), (0x2004, 0x55), (0x2005, 0x66), (0x2006, 0x77), (0x2007, 0x88)]

/-- x1 = 5, x2 = 0x2000, x3 = all ones, x4 = the last byte of MEM_MAP, x5 = the first vacant byte, x6 = 0x80000000 (its
sign bit at XLEN = 32), x7 = 2^63, x8 = the last doubleword of MEM_MAP, x9 = 2^32, x10 = 0x2001. -/
def demo (xl : XLen) : State :=
  given xl 0x1000 [(1, 5), (2, 0x2000), (3, 0xffffffffffffffff), (4, 0xfffff), (5, 0x100000), (6, 0x80000000),
    (7, 0x8000000000000000), (8, 0xffff8), (9, 0x100000000), (10, 0x2001)] [] 0 spread

/-- `demo` under MISALIGNED_DATA = emulate. -/
def demoEmulate (xl : XLen) : State := { demo xl with cfg := { (demo xl).cfg with misaligned := .emulate } }

/-- `demo` with the reservation `[0x2000, 0x2000 + n)`. -/
def demoReserved (xl : XLen) (n : Nat) : State := { demo xl with reservation := some ⟨0x2000, n⟩ }

/-- `demo` with the given `frm`. -/
def demoFrm (xl : XLen) (frm : Rm) : State := { demo xl with fcsr := (0 : BitVec 24) ++ frm ++ (0 : BitVec 5) }

/-- The answer is the next state `t`. -/
def isNext (r : Res) (t : State) : Bool :=
  match r with
  | .next u => decide (u = t)
  | .fault _ => false
  | .refused _ => false

theorem eq_next_of_isNext {r : Res} {t : State} (h : isNext r t = true) : r = .next t := by
  unfold isNext at h
  split at h
  · rw [of_decide_eq_true h]
  · cases h
  · cases h

/-- DecodeOfEncodeIsTheInstruction: extreme operands. -/
theorem witness_wf : (Instr.beq 31 0 (-4096)).wf .rv32 = true ∧ (Instr.jal 31 0xffffe).wf .rv64 = true ∧
    (Instr.slli64 31 31 63).wf .rv64 = true ∧ (Instr.fmaddD 31 0 31 0 6).wf .rv32 = true := by decide

/-- EncodeOfDecodeIsTheWord and XlenDecidesTheDecoding: a word that decodes. -/
theorem witness_decodes : decode .rv32 0x80000037 = some (.lui 0 0x80000) ∧ decode .rv64 0xffffffb7 = some (.lui 31 0xfffff) := by
  decide +kernel

/-- AtMostOneRowMatches: a row that matches a word, the first and the last of the table. -/
theorem witness_row : (opcodeTable[0]?.map (·.isRowOf .rv32 0x80000037)) = some true ∧
    (opcodeTable[148]?.map (·.isRowOf .rv64 0xf20081d3)) = some true := by decide +kernel

/-- IllegalWordsTrap: a running hart whose word is all zeros, and a word of each listed kind. -/
theorem witness_illegal :
    State.reset.status = .running ∧ State.reset.pc.toNat % 4 = 0 ∧ State.reset.atHalt = false ∧
    State.reset.fetchAddrs.all State.reset.cfg.mapped = true ∧ State.reset.fetch.1 = [0, 0, 0, 0] ∧
    decode .rv64 (wordOfBytes 0 0 0 0) = none ∧ (0x00000002 : Word).extractLsb' 0 2 ≠ 3 ∧
    (0x00000073 : Word).extractLsb' 0 7 ∉ [0x03, 0x07, 0x0f, 0x13, 0x17, 0x1b, 0x23, 0x27, 0x2f, 0x33, 0x37, 0x3b, 0x43, 0x47,
      0x4b, 0x4f, 0x53, 0x63, 0x67, 0x6f] ∧
    ((0x04000033 : Word).extractLsb' 0 7 = 0x33 ∧ (0x04000033 : Word).extractLsb' 25 7 ∉ [0x00, 0x20, 0x01]) ∧
    ((0x00003063 : Word).extractLsb' 0 7 = 0x63 ∧ (0x00003063 : Word).extractLsb' 12 3 ∈ [2, 3]) ∧
    ((0x00007003 : Word).extractLsb' 0 7 = 0x03 ∧ (0x00007003 : Word).extractLsb' 12 3 = 7) ∧
    ((0x04000053 : Word).extractLsb' 0 7 ∈ [0x43, 0x47, 0x4b, 0x4f, 0x53] ∧ (0x04000053 : Word).extractLsb' 25 2 ∈ [2, 3]) ∧
    ((0x0000102f : Word).extractLsb' 0 7 = 0x2f ∧ (0x0000102f : Word).extractLsb' 12 3 ∉ [2, 3]) ∧
    ((0x103122af : Word).extractLsb' 0 7 = 0x2f ∧ (0x103122af : Word).extractLsb' 27 5 = 2 ∧
      (0x103122af : Word).extractLsb' 20 5 ≠ 0) := by decide +kernel

/-- `demo` with `addi x3, x1, 1` at the pc. -/
def demoAddi : State := (demo .rv32).withFetchWord 32 0x00108193

/-- StepRunsTheDecodedInstruction and PlacedWordIsExecutedNext. -/
theorem witness_step :
    demoAddi.status = .running ∧ demoAddi.pc.toNat % 4 = 0 ∧ demoAddi.atHalt = false ∧
    demoAddi.fetchAddrs.all demoAddi.cfg.mapped = true ∧ demoAddi.fetch.1 = [0x93, 0x81, 0x10, 0x00] ∧
    decode demoAddi.cfg.xlen (wordOfBytes 0x93 0x81 0x10 0x00) = some (.addi 3 1 1) ∧ Memory.wf (demo .rv32).mem = true ∧
    decode (demo .rv32).cfg.xlen (BitVec.ofNat 32 0x00108193) = some (.addi 3 1 1) := by decide +kernel

/-- FencedFetchReadsMemory: a byte elsewhere awaits a FENCE.I. UnfencedFetchIsACandidate: a recorded byte. -/
theorem witness_fetch :
    (∀ c ∈ ({ demo .rv64 with unfenced := [(0x1004, [0, 1])] } : State).unfenced, c.1 ∉ (demo .rv64).fetchAddrs) ∧
    Memory.wf [(0x1004, 1)] = true ∧ Unfenced.wf [(0x1004, [0, 1])] = true := by decide +kernel

/-- FetchOfVacantBytesTraps: the pc at the first vacant word; a jump from the last word to it. -/
theorem witness_vacant :
    (let s : State := { demo .rv64 with pc := 0x100000 }
     s.status = .running ∧ s.pc.toNat % 4 = 0 ∧ s.pc.toNat < s.span ∧ s.atHalt = false ∧
       s.fetchAddrs.all s.cfg.mapped = false) ∧
    (let s : State := { demo .rv64 with pc := 0xffffc }
     s.status = .running ∧ s.cfg.haltSet = [] ∧ s.ofInt (s.pc.toNat + (4 : BitVec 21).toInt) % 4 = 0 ∧
       s.cfg.mapped (s.ofInt (s.pc.toNat + (4 : BitVec 21).toInt)) = false) := by decide +kernel

/-- `demo` with its pc in HALT_SET. -/
def demoHalt : State := { demo .rv64 with cfg := { (demo .rv64).cfg with haltSet := [0x1000] } }

/-- HaltSetStopsTheHart: a pc in HALT_SET, and the state after the stop. -/
theorem witness_halt : demoHalt.status = .running ∧ demoHalt.pc.toNat % 4 = 0 ∧ demoHalt.pc.toNat < demoHalt.span ∧
    demoHalt.pc ∈ demoHalt.cfg.haltSet ∧ (match step demoHalt with | .next t => t.status | _ => .running) = .stopped := by
  decide +kernel

/-- TrapEntryRecordsAndStops, PcAdvancesByFour, OnlyTabledExceptionsAndPrecise: an instruction that traps, a trapped state
and a run from it, an instruction that does not trap, the highest pc, jumps to an aligned and a misaligned target. -/
theorem witness_trap :
    (demo .rv64).status = .running ∧
    exec (.jal 1 2) (demo .rv64) = .next ((demo .rv64).takeTrap .instructionAddressMisaligned 0x1002) ∧
    ((demo .rv64).takeTrap .instructionAddressMisaligned 0x1002).status = .trapped .instructionAddressMisaligned 0x1002 0x1000 ∧
    (Instr.fenceI).transfersControl = false ∧ (Instr.jal 1 2).transfersControl = true ∧
    exec .fenceI { demo .rv64 with pc := 0xfffffffffffffffc } = .next { demo .rv64 with pc := 0 } ∧
    exec (.jal 0 4) (demo .rv64) = .next { demo .rv64 with pc := 0x1004 } ∧ (demo .rv64).pc.toNat % 4 = 0 ∧
    (Instr.jal 1 2).admission.admits .rv64 = true :=
  ⟨by decide +kernel, eq_next_of_isNext (by decide +kernel), by decide +kernel, rfl, rfl,
    eq_next_of_isNext (by decide +kernel), eq_next_of_isNext (by decide +kernel), by decide +kernel, rfl⟩

/-- The trapped state reaches itself. -/
theorem witness_reachable (s : State) : Reachable s s := .here

/-- A launch, for PcAdvancesByFour and ResetStateSatisfiesTheInvariant: XLEN = 32, one byte of image, every field set. -/
def someLaunch : Launch :=
  { resetLaunch with
    cfg := { resetConfig with xlen := .rv32, haltSet := [0x1010] }, frmInit := 3, fflagsInit := 5, image := [(0x1000, 0x13)] }

/-- The launch is admitted. -/
theorem witness_launch : someLaunch.ok = true ∧
    (match State.launch someLaunch with | .next s => some (s.fcsr, s.mem) | _ => none) = some (0x65, [(0x1000, 0x13)]) := by
  decide +kernel

/-- JumpsTransferOrRaise: an aligned and a misaligned target of JAL and of JALR (bit 0 dropped first). -/
theorem witness_jump :
    (let s := demo .rv32
     s.ofInt (s.pc.toNat + (-4 : BitVec 21).toInt) % 4 = 0 ∧ s.ofInt (s.pc.toNat + (2 : BitVec 21).toInt) % 4 ≠ 0 ∧
       s.ofInt (s.xInt 10 + (0 : BitVec 12).toInt) / 2 * 2 % 4 = 0 ∧
       s.ofInt (s.xInt 10 + (1 : BitVec 12).toInt) / 2 * 2 % 4 ≠ 0) := by decide +kernel

/-- BranchesCompareAndTransfer: every condition holds and fails somewhere; an aligned and a misaligned target. -/
theorem witness_branch :
    (let s := demo .rv32
     s.xNat 1 = s.xNat 1 ∧ s.xNat 1 ≠ s.xNat 2 ∧ s.xInt 6 < s.xInt 1 ∧ ¬s.xInt 1 < s.xInt 6 ∧ s.xInt 3 ≤ s.xInt 0 ∧
       ¬s.xInt 0 ≤ s.xInt 3 ∧ s.xNat 0 < s.xNat 3 ∧ ¬s.xNat 3 < s.xNat 0 ∧ s.xNat 3 ≤ s.xNat 3 ∧ ¬s.xNat 3 ≤ s.xNat 0 ∧
       s.ofInt (s.pc.toNat + (-4096 : BitVec 13).toInt) % 4 = 0 ∧ s.ofInt (s.pc.toNat + (6 : BitVec 13).toInt) % 4 ≠ 0) := by
  decide +kernel

/-- Accesses of every size at the edges of MEM_MAP, aligned, and misaligned under emulate: LoadsExtendLittleEndianBytes,
StoresWriteTheLowBytes, FloatLoadsAndStores. -/
theorem witness_plain_access :
    (demo .rv32).plainAccessible ((demo .rv32).ea 4 0) 1 ∧ (demo .rv32).plainAccessible ((demo .rv32).ea 4 (-1)) 2 ∧
    (demo .rv32).plainAccessible ((demo .rv32).ea 4 (-3)) 4 ∧ (demo .rv64).plainAccessible ((demo .rv64).ea 4 (-7)) 8 ∧
    (demo .rv32).plainAccessible ((demo .rv32).ea 0 0) 8 ∧
    (demoEmulate .rv64).plainAccessible ((demoEmulate .rv64).ea 10 0) 8 ∧
    (demoEmulate .rv32).plainAccessible ((demoEmulate .rv32).ea 10 0) 4 := by
  unfold State.plainAccessible; decide +kernel

/-- Canonical memory and both XLEN, for every statement with those hypotheses. -/
theorem witness_memory_and_xlen : Memory.wf (demo .rv64).mem = true ∧ Memory.wf (demoEmulate .rv32).mem = true ∧
    (demo .rv32).cfg.xlen = .rv32 ∧ (demo .rv64).cfg.xlen = .rv64 := by decide +kernel

/-- DivisionCornerResults and DivisionQuotientAndRemainder: a zero divisor, the overflow, a zero low word, the overflow of
words, and divisors other than zero. -/
theorem witness_division :
    (demo .rv32).xNat 0 = 0 ∧
    ((demo .rv32).xInt 6 = -2 ^ ((demo .rv32).cfg.xlen.bits - 1) ∧ (demo .rv32).xInt 3 = -1) ∧
    ((demo .rv64).xInt 7 = -2 ^ ((demo .rv64).cfg.xlen.bits - 1) ∧ (demo .rv64).xInt 3 = -1) ∧
    low32 ((demo .rv64).xInt 9) = 0 ∧ (low32 ((demo .rv64).xInt 6) = -2 ^ 31 ∧ low32 ((demo .rv64).xInt 3) = -1) ∧
    (demo .rv64).xNat 9 ≠ 0 ∧ low32 ((demo .rv64).xInt 3) ≠ 0 := by decide +kernel

/-- Atomic accesses at the edges of MEM_MAP: LoadReservedReadsAndReserves, AtomicWordUpdates, AtomicDoublewordUpdates. -/
theorem witness_atomic_access :
    (demo .rv32).cfg.granuleOk = true ∧ (demo .rv32).accessible ((demo .rv32).rX 0) 4 ∧
    (demo .rv32).accessible ((demo .rv32).rX 8) 4 ∧ (demo .rv64).accessible ((demo .rv64).rX 8) 8 := by
  unfold State.accessible; decide +kernel

/-- StoreConditionalOutcomes: no reservation; a reservation that just contains the bytes; one that is a byte short. -/
theorem witness_store_conditional :
    (demo .rv32).accessible ((demo .rv32).rX 2) 4 ∧ ¬(demo .rv32).holds ((demo .rv32).rX 2) 4 ∧
    (demoReserved .rv32 4).holds ((demoReserved .rv32 4).rX 2) 4 ∧
    (demo .rv64).accessible ((demo .rv64).rX 2) 8 ∧ (demoReserved .rv64 8).holds ((demoReserved .rv64 8).rX 2) 8 ∧
    ¬(demoReserved .rv64 7).holds ((demoReserved .rv64 7).rX 2) 8 := by
  refine ⟨by unfold State.accessible; decide +kernel, fun ⟨r, h, _⟩ => ?_, ⟨_, rfl, by decide +kernel⟩,
    by unfold State.accessible; decide +kernel, ⟨_, rfl, by decide +kernel⟩, fun ⟨r, h, h'⟩ => ?_⟩
  · have h0 : (demo .rv32).reservation = none := by decide +kernel
    rw [h0] at h; cases h
  · have h0 : (demoReserved .rv64 7).reservation = some ⟨0x2000, 7⟩ := rfl
    rw [h0] at h; cases h; revert h'; decide +kernel

/-- RetriedStoreConditionalSucceedsUnlessTheDrawFailsForEver. -/
theorem witness_retry : (demo .rv32).cfg.granuleOk = true ∧ Memory.wf (demo .rv32).mem = true ∧
    (demo .rv32).accessible ((demo .rv32).rX 2) 4 ∧ (5 : XReg) ≠ 2 ∧ (5 : XReg) ≠ 3 ∧ (6 : XReg) ≠ 2 ∧ (6 : XReg) ≠ 3 ∧
    (6 : XReg) ≠ 0 := by unfold State.accessible; decide +kernel

/-- The loop `lr.w x5, (x2)`; `sc.w x0, x5, (x2)`; `beq x0, x0, -8` at 0x1000, at its LR. -/
def lrState : State :=
  { State.reset with x := (Vector.replicate 31 0).set 1 0x2000, mem := (placeCells
      [(0x1000, 0xaf), (0x1001, 0x22), (0x1002, 0x01), (0x1003, 0x10), (0x1004, 0x2f), (0x1005, 0x20), (0x1006, 0x51),
       (0x1007, 0x18), (0x1008, 0xe3), (0x1009, 0x0c), (0x100a, 0x00), (0x100b, 0xfe)] []) }
/-- At its SC. -/
def scState : State := { lrState with pc := 0x1004, reservation := some ⟨0x2000, 8⟩ }
/-- At its branch. -/
def retryState : State := { lrState with pc := 0x1008 }
/-- The state after `d` draws of store-conditionals. -/
def drawn (s : State) (d : Nat) : State := { s with scDraws := d }

/-- The next step executes `i`, whatever the number of draws. -/
def Ready (s : State) (i : Instr) : Prop :=
  s.status = .running ∧ s.pc.toNat % 4 = 0 ∧ s.atHalt = false ∧ s.fetchAddrs.all s.cfg.mapped = true ∧
    s.decoded = some i ∧ s.fetch.2 = s.fetchDraws

theorem step_of_ready {s : State} {i : Instr} (h : Ready s i) (d : Nat) : step (drawn s d) = exec i (drawn s d) := by
  obtain ⟨h1, h2, h3, h4, h5, h6⟩ := h
  unfold State.decoded at h5
  split at h5 <;> cases h5
  rename_i h7
  have e1 : (drawn s d).status = .running := h1
  have e2 : ¬(drawn s d).pc.toNat % 4 ≠ 0 := not_not.mpr h2
  have e3 : ¬(drawn s d).atHalt = true := by rw [show (drawn s d).atHalt = s.atHalt from rfl, h3]; decide
  have e4 : (drawn s d).fetchAddrs.all (drawn s d).cfg.mapped = true := h4
  have e5 : { drawn s d with status := .running, fetchDraws := (drawn s d).fetch.2 } = drawn s d := by
    rw [show (drawn s d).fetch.2 = (drawn s d).fetchDraws from h6, ← e1]
  have e6 : decodeBytes (drawn s d).cfg.xlen (drawn s d).fetch.1 = _ := h7
  unfold step cycle
  rw [e1]
  simp only [if_neg e2, if_neg e3, if_pos e4, runBytes, e6]
  exact congrArg (exec i) e5

theorem ready_loop : Ready lrState (.lrW 5 2 false false) ∧ Ready scState (.scW 0 5 2 false false) ∧
    Ready retryState (.beq 0 0 (-8)) := by unfold Ready; decide +kernel

theorem step_lr (d : Nat) : step (drawn lrState d) = .next (drawn scState d) := by
  rw [step_of_ready ready_loop.1]
  have h0 : (drawn lrState d).accessExc .load true ((drawn lrState d).rX 2) 4 = none :=
    show lrState.accessExc .load true (lrState.rX 2) 4 = none by decide +kernel
  have h : ((({ lrState with reservation := some (lrState.reservationAt (lrState.rX 2) 4) } : State).wX 5
      ((lrState.memRead (lrState.rX 2) 4).signExtend lrState.cfg.xlen.bits)).advance) = scState := by decide +kernel
  show loadReserved (drawn lrState d) 5 ((drawn lrState d).rX 2) 4 = _
  rw [loadReserved, h0]
  exact congrArg (fun t => Host.Outcome.next (drawn t d)) h

theorem step_sc (d : Nat) : step (drawn scState d) = .next (drawn retryState (d + 1)) := by
  rw [step_of_ready ready_loop.2.1]
  have h0 : (drawn scState d).accessExc .store true ((drawn scState d).rX 2) 4 = none :=
    show scState.accessExc .store true (scState.rX 2) 4 = none by decide +kernel
  have h1 : (drawn scState d).reserved ((drawn scState d).rX 2) 4 = true :=
    show scState.reserved (scState.rX 2) 4 = true by decide +kernel
  have h2 : (({ scState with reservation := none } : State).wX 0 (1 : BitVec 64)).advance = retryState := by decide +kernel
  have h3 : ((({ scState with reservation := none } : State).memWrite (scState.rX 2) 4 (scState.rX 5)).wX 0
      (0 : DWord)).advance = retryState := by decide +kernel
  show storeConditional (drawn scState d) 0 ((drawn scState d).rX 2) 4 ((drawn scState d).rX 5) = _
  simp only [storeConditional, h0, h1, if_true]
  split
  · exact congrArg (fun t => Host.Outcome.next (drawn t (d + 1))) h2
  · exact congrArg (fun t => Host.Outcome.next (drawn t (d + 1))) h3

theorem branch_drawn {s t : State} {off : BitVec 13} (h0 : BitVec.extractLsb' 0 2 (s.rPc + off.signExtend _) = 0)
    (h : s.setPc (s.rPc + off.signExtend s.cfg.xlen.bits) = t) (d : Nat) :
    branch (drawn s d) true off = .next (drawn t d) := by
  subst h
  have h1 : BitVec.extractLsb' 0 2 ((drawn s d).rPc + off.signExtend (drawn s d).cfg.xlen.bits) = 0 := h0
  simp only [branch, if_true, h1]
  rfl

theorem step_retry (d : Nat) : step (drawn retryState d) = .next (drawn lrState d) := by
  rw [step_of_ready ready_loop.2.2]
  show branch (drawn retryState d) ((drawn retryState d).rX 0 == (drawn retryState d).rX 0) (-8) = _
  rw [beq_self_eq_true]
  exact branch_drawn (by decide +kernel) (by decide +kernel) d

theorem decoded_drawn (s : State) (d : Nat) : (drawn s d).decoded = s.decoded := rfl

theorem accessAddr_drawn (s : State) (d : Nat) : (drawn s d).accessAddr = s.accessAddr := rfl

/-- The run of the loop, which never leaves it, whatever the draws. -/
def loopRun (k : Nat) : State :=
  if k % 3 = 0 then drawn lrState (k / 3) else if k % 3 = 1 then drawn scState (k / 3) else drawn retryState (k / 3 + 1)
theorem loopRun_lr (q : Nat) : loopRun (3 * q) = drawn lrState q := by simp [loopRun]
theorem loopRun_sc (q : Nat) : loopRun (3 * q + 1) = drawn scState q := by
  simp [loopRun, show (3 * q + 1) % 3 = 1 by omega, show (3 * q + 1) / 3 = q by omega]
theorem loopRun_retry (q : Nat) : loopRun (3 * q + 2) = drawn retryState (q + 1) := by
  simp [loopRun, show (3 * q + 2) % 3 = 2 by omega, show (3 * q + 2) / 3 = q by omega]

theorem three_cases (k : Nat) : ∃ q, k = 3 * q ∨ k = 3 * q + 1 ∨ k = 3 * q + 2 := ⟨k / 3, by omega⟩

/-- Where the loop stands. -/
def loopPlace : LoopPlace := ⟨0x1000, 4⟩

theorem offsets (d : Nat) : loopPlace.offset (drawn lrState d) = 0 ∧ loopPlace.offset (drawn scState d) = 4 ∧
    loopPlace.offset (drawn retryState d) = 8 :=
  show loopPlace.offset lrState = 0 ∧ loopPlace.offset scState = 4 ∧ loopPlace.offset retryState = 8 by decide +kernel

theorem loop_steps (q : Nat) : step (loopRun (3 * q)) = .next (loopRun (3 * q + 1)) ∧
    step (loopRun (3 * q + 1)) = .next (loopRun (3 * q + 2)) ∧ step (loopRun (3 * q + 2)) = .next (loopRun (3 * (q + 1))) := by
  simp only [loopRun_lr, loopRun_sc, loopRun_retry, step_lr, step_sc, step_retry, and_self]

/-- ConstrainedLoopStoresUnlessTheRunIsUnfair. -/
theorem witness_constrained_loop :
    (loopRun 0).cfg.granuleOk = true ∧ Memory.wf (loopRun 0).mem = true ∧ RunsConstrainedLoop loopRun loopPlace 4 ∧
    ∀ m, ∃ k, m ≤ k ∧ loopPlace.offset (loopRun k) = loopPlace.sc := by
  refine ⟨by decide +kernel, by decide +kernel, ⟨fun k => ?_, by decide, fun k => ?_, fun j k _ hj hk _ => ?_⟩,
    fun m => ⟨3 * m + 1, by omega, ?_⟩⟩
  · obtain ⟨q, rfl | rfl | rfl⟩ := three_cases k
    exacts [(loop_steps q).1, (loop_steps q).2.1, (loop_steps q).2.2]
  · obtain ⟨q, rfl | rfl | rfl⟩ := three_cases k
    · rw [loopRun_lr, loopRun_sc]
      simp only [LoopPlace.Step, offsets]
      exact ⟨by decide, .lrW 5 2 false false, (decoded_drawn _ _).trans ready_loop.1.2.2.2.2.1, rfl, 2, rfl⟩
    · rw [loopRun_sc, loopRun_retry]
      simp only [LoopPlace.Step, offsets]
      exact ⟨by decide, .scW 0 5 2 false false, (decoded_drawn _ _).trans ready_loop.2.1.2.2.2.2.1, rfl, 2, rfl⟩
    · rw [loopRun_retry, show 3 * q + 2 + 1 = 3 * (q + 1) by omega, loopRun_lr]
      simp only [LoopPlace.Step, offsets]
      exact ⟨by decide, .beq 0 0 (-8), (decoded_drawn _ _).trans ready_loop.2.2.2.2.2.2.1, rfl, .inr ⟨by decide, rfl, trivial⟩⟩
  · obtain ⟨q, rfl | rfl | rfl⟩ := three_cases j <;> obtain ⟨p, rfl | rfl | rfl⟩ := three_cases k <;>
      simp only [loopRun_lr, loopRun_sc, loopRun_retry, offsets, show loopPlace.sc = 4 from rfl] at hj hk <;> try omega
    rw [loopRun_lr, loopRun_sc, accessAddr_drawn, accessAddr_drawn]
    decide +kernel
  · rw [loopRun_sc, (offsets m).2.1]; rfl

/-- DataAccessExceptions: misaligned under trap; an atomic misaligned under emulate; the first vacant byte; a doubleword
whose first byte alone exists, under emulate; a one-byte access. -/
theorem witness_data_access :
    ((Instr.lw 1 10 0).access = some (.load, false, 4, 10, 0) ∧ (Instr.lw 1 10 0).admission.admits .rv32 = true ∧
      (demo .rv32).ofInt ((demo .rv32).xInt 10 + (0 : BitVec 12).toInt) % 4 ≠ 0 ∧ (demo .rv32).cfg.misaligned = .trap) ∧
    ((Instr.amoaddD 1 3 10 true true).access = some (.store, true, 8, 10, 0) ∧
      (demoEmulate .rv64).ofInt ((demoEmulate .rv64).xInt 10 + (0 : BitVec 12).toInt) % 8 ≠ 0) ∧
    ((Instr.sb 1 5 0).access = some (.store, false, 1, 5, 0) ∧ (demo .rv32).cfg.mapped 0x100000 = false) ∧
    ((Instr.ld 1 4 0).access = some (.load, false, 8, 4, 0) ∧ (Instr.ld 1 4 0).admission.admits .rv64 = true ∧
      (demoEmulate .rv64).cfg.misaligned ≠ .trap ∧
      ∃ j < 8, (demoEmulate .rv64).cfg.mapped ((0xfffff + j) % (demoEmulate .rv64).span) = false) := by
  refine ⟨by decide +kernel, by decide +kernel, by decide +kernel, rfl, rfl, by decide +kernel, 1, by decide, by decide +kernel⟩

/-- ReservedRoundingModesTrap and the statements about instructions with a rounding mode: every reserved and every legal
code, static and dynamic. -/
theorem witness_rounding_modes :
    (Instr.fcvtDWu 1 2 5).rmField = some 5 ∧ (Instr.fcvtDWu 1 2 5).admission.admits .rv32 = true ∧
    (∀ f : Rm, (f = 5 ∨ f = 6 ∨ f = 7) ↔ (demoFrm .rv64 f).roundingMode 7 = none) ∧
    (demoFrm .rv32 4).roundingMode 7 = some .rmm ∧ (demoFrm .rv32 5).roundingMode 0 = some .rne ∧
    (demoFrm .rv32 0).roundingMode 4 = some .rmm ∧ (demoFrm .rv64 2).roundingMode 7 = some .rdn := by decide +kernel

/-- The kinds of values that the clauses of MinMaxPickAnOperand, ComparisonsAreNumerical, FloatToIntegerSaturates,
NaNOperandsGiveTheCanonicalNaN and SpecialOperandsOfTheArithmetic speak of, in both formats. -/
theorem witness_values :
    Fmt.f32.value 0x7f800001 = .nan true ∧ Fmt.f64.value 0xffffffffffffffff = .nan false ∧
    Fmt.f32.value 0xff800000 = .inf true ∧ Fmt.f64.value 0x7ff0000000000000 = .inf false ∧
    Fmt.f32.value 0x80000000 = .zero true ∧ Fmt.f64.value 0 = .zero false ∧ Fmt.f32.value 0xbf800000 = .fin (-1) ∧
    Fmt.f64.value 0x4000000000000000 = .fin 2 ∧ Fmt.f32.value 0x3f800000 = .fin 1 ∧
    ((Fmt.f32.value 0x7f800001).isNaN = true ∧ (Fmt.f32.value 0x7fc00000).isNaN = true ∧
      (Fmt.f32.value 0x3f800000).isNaN = false) ∧
    (Fmt.f32.value 0x3f800000).mul (Fmt.f32.value 0x40000000) ≠ none := by decide +kernel

/-- Numbers in order, equal, opposite and negative, for the clauses with `isRat`. -/
theorem witness_numbers :
    (Fmt.f32.value 0xbf800000).isRat (-1) ∧ (Fmt.f32.value 0x3f800000).isRat 1 ∧ (Fmt.f32.value 0x80000000).isRat 0 ∧
    (Fmt.f32.value 0).isRat (-0) ∧ (-1 : Rat) < 1 ∧ (1 : Rat) = -(-1) := by
  refine ⟨?_, ?_, ?_, ?_, by decide, by decide⟩
  · rw [show Fmt.f32.value 0xbf800000 = .fin (-1) by decide +kernel]; rfl
  · rw [show Fmt.f32.value 0x3f800000 = .fin 1 by decide +kernel]; rfl
  · rw [show Fmt.f32.value 0x80000000 = .zero true by decide +kernel]; rfl
  · rw [show Fmt.f32.value 0 = .zero false by decide +kernel]; rfl

/-- FloatToIntegerSaturates: ranges that contain 0; RepresentableValuesRoundToThemselves: the ends of its range. -/
theorem witness_ranges : (-2 ^ 31 : Int) ≤ 0 ∧ (0 : Int) ≤ 2 ^ 31 - 1 ∧ (0 : Int) ≤ 2 ^ 64 - 1 ∧
    (-2 ^ 31 : Int) ≤ -2 ^ 31 ∧ (-2 ^ 31 : Int) < 2 ^ 32 ∧ (-2 ^ 31 : Int) ≤ 2 ^ 32 - 1 ∧ (2 ^ 32 - 1 : Int) < 2 ^ 32 := by decide

/-- SpecialOperandsOfTheArithmetic: a division that sets DZ. -/
theorem witness_divide_by_zero : (Fmt.f32.div .rne 0xbf800000 0).2 &&& flagDZ ≠ 0 := by decide +kernel

/-- NaNOperandsGiveTheCanonicalNaN: a register that is not boxed, by one bit. -/
theorem witness_unboxed : (0xfffffffe3f800000 : DWord).toNat / 2 ^ 32 ≠ 2 ^ 32 - 1 := by decide

/-- RoundingFollowsR274: an exact rational and an exact root. -/
theorem witness_exact : (Exact.rat (-1)).isReal (-1) ∧ (Exact.root 4).isReal 2 := by
  refine ⟨⟨by norm_num, by norm_num⟩, by norm_num, by norm_num⟩

/-- SpecialOperandsOfTheArithmetic and FiniteArithmeticRoundsTheExactResult: infinities, numbers, an exact zero sum and sums
that are not zero. -/
theorem witness_special :
    (Fmt.f32.value 0xff800000).isInf = true ∧ (Fmt.f32.value 0xff800000).isNonzero = true ∧
    (Fmt.f32.value 0x3f800000).isNonzero = true ∧ (Fmt.f32.value 0x80000000).isNumber = true ∧
    (Fmt.f32.value 0x80000000).isNonzero = false ∧ Fmt.f32.value 0x7f800000 = .inf (true == false) ∧
    (-((-1 : Rat) * 1)) + (-1) = 0 ∧ ((-1 : Rat) * 1) + (-1) ≠ 0 ∧ (-1 : Rat) + (-1) ≠ 0 ∧ (-1 : Rat) - 1 ≠ 0 ∧
    (-1 : Rat) ≠ 0 ∧ (0 : Rat) < 1 := by decide +kernel

/-- FlagsPerInstruction and InstructionsWriteOnlyTheirDestinations: an instruction of each kind that completes. -/
theorem witness_kinds :
    (Instr.fsqrtS 1 2 0).flagMask = flagNV ||| flagNX ∧ (Instr.lui 0 1).xDest = some 0 ∧ (Instr.lui 0 1).fDest ≠ some 3 ∧
    (Instr.lui 0 1).writesMemory = false ∧ (Instr.lui 0 1).touchesReservation = false ∧
    (Instr.lui 0 1).allowedInLoop = true ∧
    exec (.lui 0 1) (demo .rv64) = .next { demo .rv64 with pc := 0x1004 } :=
  ⟨rfl, rfl, by decide, rfl, rfl, rfl, eq_next_of_isNext (by decide +kernel)⟩

/-- MemoryReadsBackWhatWasWritten: eight bytes in canonical memory, and two memories that read alike. -/
theorem witness_memory : Memory.wf (demo .rv64).mem = true ∧ (8 : Nat) ≤ 8 ∧
    (∀ a, memByte (demo .rv64).mem a = memByte (demo .rv64).mem a) := ⟨by decide +kernel, by decide, fun _ => rfl⟩

/-- A state of a run after a store into code: memory, a reservation and a fetch candidate. -/
def midRun : State :=
  { demo .rv64 with
    mem := [(0x1000, 0x13), (0x1004, 0x13)], unfenced := [(0x1004, [0, 0x13])], reservation := some ⟨0x2000, 8⟩, fcsr := 0x61 }

/-- StepKeepsTheInvariant: a state that satisfies the invariant and steps. -/
theorem witness_invariant : midRun.Inv ∧
    (match step midRun with | .next t => t.pc.toNat | _ => 0) = 0x1004 := by
  refine ⟨⟨by decide +kernel, by decide +kernel, by decide +kernel, by decide +kernel, by decide +kernel, by decide +kernel,
    by decide +kernel, by decide +kernel, ?_, ?_⟩, by decide +kernel⟩
  · intro r h
    have h : some (⟨0x2000, 8⟩ : Reservation) = some r := h
    cases h; decide +kernel
  · intro e v p h
    have h0 : midRun.status = .running := by decide +kernel
    rw [h0] at h; cases h

/-- LoadImmediateSequence: a destination other than x0. -/
theorem witness_li : (31 : XReg) ≠ 0 ∧ Pseudo.expand .rv64 (.li 31 0xfffff800) = [.lui 31 0, .addiw 31 31 0x800] := by decide +kernel

end Sys2Proof.Tests
end

/-!
# The step of a running hart, and the word a loader places (R11, R52, R72, R397)

First what a fetch sees and what the step does with it, then what `placeWord` makes true of the next fetch, then the
statements about the step.
-/
namespace Sys2Proof.Proofs

open Sys2Proof.Machine Sys2Proof.Laws

/-! ### What the fetched bytes spell -/

/-- Little-endian bytes put together again give the word (R51). -/
theorem wordOfBytes_extractLsb' (w : Word) :
    wordOfBytes (w.extractLsb' 0 8) (w.extractLsb' 8 8) (w.extractLsb' 16 8) (w.extractLsb' 24 8) = w := by
  apply BitVec.eq_of_getLsbD_eq
  intro j hj
  simp only [wordOfBytes, BitVec.getLsbD_append, BitVec.getLsbD_extractLsb']
  interval_cases j <;> simp

/-- Four bytes whose word is a row's run that row's instruction. -/
theorem runBytes_of_decode {s : State} {b0 b1 b2 b3 : Byte} {i : Instr}
    (h : decode s.cfg.xlen (wordOfBytes b0 b1 b2 b3) = some i) : runBytes s [b0, b1, b2, b3] = exec i s := by
  simp only [runBytes, decodeBytes, h]

theorem runBytes_bytesOfWord {s : State} {w : Word} {i : Instr} (h : decode s.cfg.xlen w = some i) :
    runBytes s (bytesOfWord w) = exec i s :=
  runBytes_of_decode ((congrArg _ (wordOfBytes_extractLsb' w)).trans h)

/-! ### What a fetch sees -/

/-- A byte that awaits no FENCE.I is fetched from memory, without a draw (R72). -/
theorem fetchByte_of_fenced (m : Memory) {u : Unfenced} (draws : Nat) {a : Nat} (h : ∀ c ∈ u, c.1 ≠ a) :
    fetchByte m u draws a = (memByte m a, draws) := by
  have hnone : u.lookup a = none := List.lookup_eq_none_iff.2 fun c hc => by simpa using (h c hc).symm
  simp only [fetchByte, hnone]

/-- Bytes that await no FENCE.I are fetched from memory, without a draw (R52, R72). -/
theorem fetchBytes_of_fenced (m : Memory) {u : Unfenced} (draws : Nat) {as : List Nat}
    (h : ∀ c ∈ u, c.1 ∉ as) : fetchBytes m u draws as = (as.map (memByte m), draws) := by
  induction as with
  | nil => rfl
  | cons a as ih =>
    have hhead : ∀ c ∈ u, c.1 ≠ a := fun c hc e => h c hc (e ▸ List.mem_cons_self)
    have htail : ∀ c ∈ u, c.1 ∉ as := fun c hc hmem => h c hc (List.mem_cons_of_mem a hmem)
    simp only [fetchBytes, fetchByte_of_fenced m draws hhead, ih htail, List.map_cons]

/-! ### The step of a running hart -/

/-- A running hart at an aligned pc outside HALT_SET whose instruction bytes exist runs the bytes its fetch sees: what
is left of R11 after the checks of R386 and R397. -/
theorem step_eq_runBytes {s : State} (hrun : s.status = .running) (hpc : s.pc.toNat % 4 = 0)
    (hhalt : s.atHalt = false) (hmap : s.fetchAddrs.all s.cfg.mapped = true) :
    step s = runBytes { s with fetchDraws := s.fetch.2 } s.fetch.1 := by
  unfold step cycle
  simp [hrun, hpc, hhalt, hmap]

/-! ### What placing a word makes true of the next fetch -/

/-- Placing bytes leaves every other byte as it was. -/
theorem memByte_placeCells_other {cs : List Host.Cell} {a : Nat} (h : a ∉ cs.map Prod.fst) (m : Memory) :
    memByte (placeCells cs m) a = memByte m a := by
  induction cs generalizing m with
  | nil => rfl
  | cons c cs ih =>
    obtain ⟨hne, hrest⟩ := not_or.1 (List.mem_cons.not.1 h)
    exact (ih hrest _).trans (memByte_memInsert_other hne _ _)

/-- Bytes placed at different addresses read back, in order. -/
theorem map_memByte_placeCells {cs : List Host.Cell} (hnodup : (cs.map Prod.fst).Nodup) {m : Memory}
    (hm : Memory.wf m = true) : (cs.map Prod.fst).map (memByte (placeCells cs m)) = cs.map Prod.snd := by
  induction cs generalizing m with
  | nil => rfl
  | cons c cs ih =>
    obtain ⟨hc, hcs⟩ := List.nodup_cons.1 hnodup
    have hhead : memByte (placeCells (c :: cs) m) c.1 = c.2 :=
      (memByte_placeCells_other hc _).trans (memByte_memInsert_same _ _ _ hm)
    exact List.cons_eq_cons.2 ⟨hhead, ih hcs (memInsert_wf _ _ _ hm)⟩

/-- The four bytes of an instruction lie at different addresses, also across the top of the address space. -/
theorem fetchAddrs_nodup (s : State) : s.fetchAddrs.Nodup :=
  byteAddrs_nodup s.rPc (by cases s.cfg.xlen <;> decide)

@[simp] theorem fetchAddrs_length (s : State) : s.fetchAddrs.length = 4 := by simp [State.fetchAddrs, byteAddrs]

@[simp] theorem placeWord_fetchAddrs (s : State) (w : Word) : (s.placeWord w).fetchAddrs = s.fetchAddrs := rfl

/-- Placing a word takes the pc out of HALT_SET. -/
theorem placeWord_atHalt (s : State) (w : Word) : (s.placeWord w).atHalt = false := by
  change (s.cfg.haltSet.filter fun h => h.setWidth s.cfg.xlen.bits != s.rPc).any
    (fun h => h.setWidth s.cfg.xlen.bits == s.rPc) = false
  rw [List.any_eq_false]
  intro h hmem
  simpa using (List.mem_filter.1 hmem).2

/-- Placing a word makes its four bytes exist. -/
theorem placeWord_mapped (s : State) (w : Word) :
    (s.placeWord w).fetchAddrs.all (s.placeWord w).cfg.mapped = true := by
  rw [List.all_eq_true]
  intro a ha
  change ((s.fetchAddrs.filter fun a => !s.cfg.mapped a).map (fun b => (⟨b, 1⟩ : MemRange)) ++ s.cfg.memMap).any
    (·.contains a) = true
  rw [List.any_append, Bool.or_eq_true]
  by_cases hold : s.cfg.mapped a = true
  · exact .inr hold
  · refine .inl (List.any_eq_true.2 ⟨⟨a, 1⟩, ?_, by simp [MemRange.contains]⟩)
    exact List.mem_map.2 ⟨a, List.mem_filter.2 ⟨ha, by simpa using hold⟩, rfl⟩

/-- Placing a word drops the older candidates for its bytes. -/
theorem placeWord_fenced (s : State) (w : Word) : ∀ c ∈ (s.placeWord w).unfenced, c.1 ∉ s.fetchAddrs := by
  intro c hc
  simpa using (List.mem_filter.1 hc).2

/-- The four bytes of a placed word are read back from memory. -/
theorem map_memByte_placeWord (s : State) (w : Word) (hm : Memory.wf s.mem = true) :
    s.fetchAddrs.map (memByte (s.placeWord w).mem) = bytesOfWord w := by
  have hlen : s.fetchAddrs.length = (bytesOfWord w).length := fetchAddrs_length s
  have haddrs : (s.fetchAddrs.zip (bytesOfWord w)).map Prod.fst = s.fetchAddrs := List.map_fst_zip hlen.le
  have hbytes : (s.fetchAddrs.zip (bytesOfWord w)).map Prod.snd = bytesOfWord w := List.map_snd_zip hlen.ge
  have hread := map_memByte_placeCells (by rw [haddrs]; exact fetchAddrs_nodup s) hm
  rwa [haddrs, hbytes] at hread

/-- The next fetch after placing a word sees that word and takes no draw (R52, R425). -/
theorem placeWord_fetch (s : State) (w : Word) (hm : Memory.wf s.mem = true) :
    (s.placeWord w).fetch = (bytesOfWord w, s.fetchDraws) := by
  unfold State.fetch
  rw [placeWord_fetchAddrs, fetchBytes_of_fenced _ _ (placeWord_fenced s w), map_memByte_placeWord s w hm,
    placeWord_fetchDraws]

/-- The step after placing a word runs that word's bytes, at the state as placed: the fetch took no draw. -/
theorem step_placeWord (s : State) (w : Word) (hm : Memory.wf s.mem = true) (hpc : s.pc.toNat % 4 = 0) :
    step (s.placeWord w) = runBytes (s.placeWord w) (bytesOfWord w) := by
  rw [step_eq_runBytes (placeWord_status s w) hpc (placeWord_atHalt s w) (placeWord_mapped s w),
    placeWord_fetch s w hm]
  rfl

/-! ### The obligations of 00_scope.md -/

/-- Settles O16: the placed word is what the next fetch sees, so the step runs what it decodes to. -/
theorem placedWordIsExecutedNext : Obligations.PlacedWordIsExecutedNext := by
  intro s w i hm hpc hdec
  have hword : BitVec.ofNat 32 (w % 2 ^ 32) = BitVec.ofNat 32 w := BitVec.eq_of_toNat_eq (by simp)
  rw [withFetchWord_eq, hword, step_placeWord s _ hm hpc]
  exact runBytes_bytesOfWord hdec

/-- Settles O8: past the checks the step runs the fetched bytes, and these spell `i`. -/
theorem stepRunsTheDecodedInstruction : Obligations.StepRunsTheDecodedInstruction := by
  intro s b0 b1 b2 b3 i hrun hpc hhalt hmap hfetch hdec
  rw [step_eq_runBytes hrun hpc hhalt hmap, hfetch]
  exact runBytes_of_decode hdec

end Sys2Proof.Proofs

/-!
# What an instruction can do to the state (R11, R20 to R32, R388)

Every instruction either takes an exception, or makes some of the updates its kind allows and then advances the pc or, as a
control transfer, sets it to a multiple of 4. `exec_answers` says so once for all instructions; what every instruction
keeps is then one case per update.
-/
namespace Sys2Proof.Proofs

open Sys2Proof.Machine Sys2Proof.Laws

/-- `Updates i s u`: the state `u` is `s` after some of the updates that instruction `i` may make before it sets the pc. -/
inductive Updates (i : Instr) (s : State) : State → Prop
  /-- Nothing is written. -/
  | nothing : Updates i s s
  /-- The integer register `rd` is written (R20, R121). -/
  | writeX {u : State} (h : Updates i s u) {rd : XReg} (hrd : i.xDest = some rd) {n : Nat} (v : BitVec n) :
      Updates i s (u.wX rd v)
  /-- The floating-point register `rd` is written (R26, R121). -/
  | writeF {u : State} (h : Updates i s u) {rd : FReg} (hrd : i.fDest = some rd) (v : DWord) : Updates i s (u.wF rd v)
  /-- Exception flags accrue (R28, R272). -/
  | orFlags {u : State} (h : Updates i s u) (hi : i.allowedInLoop = false) (m : FFlags) : Updates i s (u.orFlags m)
  /-- The `n` bytes at `a`, all of them in MEM_MAP, are written (R32, R59). -/
  | store {u : State} (h : Updates i s u) (hi : i.writesMemory = true) {w k : Nat} (a : BitVec w) (n : Nat) (v : BitVec k)
      (hmap : ∀ b ∈ byteAddrs a n, u.cfg.mapped b = true) : Updates i s (u.memWrite a n v)
  /-- The reservation is made or dropped, and draws may be taken (R31, R227). -/
  | reserve {u : State} (h : Updates i s u) (hi : i.touchesReservation = true) (r : Option Reservation) (draws : Nat)
      (hr : ∀ q, r = some q → q.base.toNat < u.span ∧ 4 ≤ q.size) :
      Updates i s { u with reservation := r, scDraws := draws }
  /-- Later fetches see every earlier store (R72, R169). -/
  | fenceFetch {u : State} (h : Updates i s u) (hi : i = .fenceI) : Updates i s (fetchFence u)

/-- `Outcome i s t`: the state `t` is what instruction `i` may leave at `s`. -/
inductive Outcome (i : Instr) (s : State) : State → Prop
  /-- The exception is taken at `s` itself: nothing was written before (R388). -/
  | trap (e : Exc) (v : DWord) : Outcome i s (s.takeTrap e v)
  /-- The sequential advance after the updates (R24). -/
  | advance {u : State} (h : Updates i s u) : Outcome i s u.advance
  /-- A control transfer, to a multiple of 4 (R24, R382). -/
  | transfer {u : State} (h : Updates i s u) (hi : i.transfersControl = true) {n : Nat} {target : BitVec n}
      (haligned : target.toNat % 4 = 0) : Outcome i s (u.setPc target)

/-- `Answers i s r`: if the result `r` is a next state, it is one that instruction `i` may leave at `s`. -/
def Answers (i : Instr) (s : State) (r : Res) : Prop := ∀ t, r = .next t → Outcome i s t

/-- A number is a multiple of 4 when its two low bits are zero. -/
theorem toNat_mod_four_of_low_bits {w : Nat} {a : BitVec w} (h : a.extractLsb' 0 2 = 0) : a.toNat % 4 = 0 := by
  simpa using congrArg BitVec.toNat h

/-! ### Each shared operation answers as its instruction may -/

namespace Answers

variable {i : Instr} {s : State}

/-- Updates and then the advance are an outcome. -/
theorem of_updates {u : State} (h : Updates i s u) : Answers i s (.next u.advance) := by
  rintro _ ⟨⟩
  exact .advance h

theorem finishX {rd : XReg} {n : Nat} {v : BitVec n} (hrd : i.xDest = some rd) : Answers i s (s.finishX rd v) :=
  of_updates (.writeX .nothing hrd v)

theorem finishXFlags {rd : XReg} {n : Nat} {r : BitVec n × FFlags} (hrd : i.xDest = some rd)
    (hi : i.allowedInLoop = false) : Answers i s (s.finishXFlags rd r) :=
  of_updates (.writeX (.orFlags .nothing hi r.2) hrd r.1)

theorem finishF {rd : FReg} {v : DWord} (hrd : i.fDest = some rd) : Answers i s (s.finishF rd v) :=
  of_updates (.writeF .nothing hrd v)

theorem finishF32Flags {rd : FReg} {r : BitVec 32 × FFlags} (hrd : i.fDest = some rd) (hi : i.allowedInLoop = false) :
    Answers i s (s.finishF32Flags rd r) :=
  of_updates (.writeF (.orFlags .nothing hi r.2) hrd (box32 r.1))

theorem finishF64Flags {rd : FReg} {r : DWord × FFlags} (hrd : i.fDest = some rd) (hi : i.allowedInLoop = false) :
    Answers i s (s.finishF64Flags rd r) :=
  of_updates (.writeF (.orFlags .nothing hi r.2) hrd r.1)

theorem onRv64 {j : Instr} {k : Res} (h : Answers i s k) : Answers i s (onRv64 s j k) := by
  intro t ht
  obtain ⟨-, hk⟩ | ⟨-, rfl⟩ := onRv64_cases ht
  · exact h t hk
  · exact .trap _ _

theorem withRm {j : Instr} {rm : Rm} {k : RMode → Res} (h : ∀ m, Answers i s (k m)) :
    Answers i s (withRm s j rm k) := by
  intro t ht
  obtain ⟨m, -, hk⟩ | ⟨-, rfl⟩ := withRm_cases ht
  · exact h m t hk
  · exact .trap _ _

theorem jump {rd : XReg} {a : BitVec s.cfg.xlen.bits} (hrd : i.xDest = some rd) (hi : i.transfersControl = true) :
    Answers i s (jump s rd a) := by
  intro t ht
  obtain ⟨ha, rfl⟩ | ⟨-, rfl⟩ := jump_cases ht
  · exact .transfer (.writeX .nothing hrd _) hi (toNat_mod_four_of_low_bits ha)
  · exact .trap _ _

theorem branch {c : Bool} {off : BitVec 13} (hi : i.transfersControl = true) : Answers i s (branch s c off) := by
  intro t ht
  obtain ⟨-, rfl⟩ | ⟨-, ha, rfl⟩ | ⟨-, -, rfl⟩ := branch_cases ht
  · exact .advance .nothing
  · exact .transfer .nothing hi (toNat_mod_four_of_low_bits ha)
  · exact .trap _ _

theorem load {w n : Nat} {a : BitVec w} {k : BitVec (8 * n) → Res} (h : ∀ v, Answers i s (k v)) :
    Answers i s (load s a n k) := by
  intro t ht
  obtain ⟨-, hk⟩ | ⟨e, -, rfl⟩ := load_cases ht
  · exact h _ t hk
  · exact .trap _ _

theorem store {w k n : Nat} {a : BitVec w} {v : BitVec k} (hi : i.writesMemory = true) :
    Answers i s (store s a n v) := by
  intro t ht
  obtain ⟨hacc, rfl⟩ | ⟨e, -, rfl⟩ := store_cases ht
  · exact .advance (.store .nothing hi a n v (accessExc_eq_none.1 hacc).2)
  · exact .trap _ _

theorem amo {rd : XReg} {w n : Nat} {a : BitVec w} {op : BitVec (8 * n) → BitVec (8 * n) → BitVec (8 * n)}
    {v : BitVec (8 * n)} (hrd : i.xDest = some rd) (hi : i.writesMemory = true) : Answers i s (amo s rd a n op v) := by
  intro t ht
  obtain ⟨hacc, rfl⟩ | ⟨e, -, rfl⟩ := amo_cases ht
  · exact .advance (.writeX (.store .nothing hi a n _ (accessExc_eq_none.1 hacc).2) hrd _)
  · exact .trap _ _

/-- The reservation of an LR of at least four bytes starts at an XLEN-bit address (R227 (a)). -/
theorem reservationAt_wf (a : BitVec s.cfg.xlen.bits) {n : Nat} (hn : 4 ≤ n) :
    (s.reservationAt a n).base.toNat < s.span ∧ 4 ≤ (s.reservationAt a n).size := by
  refine ⟨?_, le_max_of_le_right hn⟩
  simp only [State.reservationAt, BitVec.toNat_setWidth]
  exact (Nat.mod_le _ _).trans_lt (BitVec.isLt _)

theorem loadReserved {rd : XReg} {n : Nat} {a : BitVec s.cfg.xlen.bits} (hrd : i.xDest = some rd)
    (hi : i.touchesReservation = true) (hn : 4 ≤ n) : Answers i s (loadReserved s rd a n) := by
  intro t ht
  obtain ⟨-, rfl⟩ | ⟨e, -, rfl⟩ := loadReserved_cases ht
  · refine .advance (.writeX (.reserve .nothing hi (some (s.reservationAt a n)) s.scDraws ?_) hrd _)
    rintro _ ⟨⟩
    exact reservationAt_wf a hn
  · exact .trap _ _

theorem storeConditional {rd : XReg} {w k n : Nat} {a : BitVec w} {v : BitVec k} (hrd : i.xDest = some rd)
    (hw : i.writesMemory = true) (hi : i.touchesReservation = true) : Answers i s (storeConditional s rd a n v) := by
  have hdrop : ∀ draws, Updates i s { s with reservation := none, scDraws := draws } := fun draws =>
    .reserve .nothing hi none draws fun _ h => nomatch h
  intro t ht
  obtain ⟨hacc, -, -, rfl⟩ | ⟨-, -, -, rfl⟩ | ⟨-, -, rfl⟩ | ⟨e, -, rfl⟩ := storeConditional_cases ht
  · exact .advance (.writeX (.store (hdrop _) hw a n v (accessExc_eq_none.1 hacc).2) hrd _)
  · exact .advance (.writeX (hdrop _) hrd _)
  · exact .advance (.writeX (hdrop s.scDraws) hrd _)
  · exact .trap _ _

end Answers

/-- Every instruction answers with one of its outcomes: it traps, or makes updates it may make and sets the pc. -/
theorem exec_answers (i : Instr) (s : State) : Answers i s (exec i s) := by
  cases i with
  | lui | auipc | addi | slti | sltiu | xori | ori | andi | slli32 | srli32 | srai32 | add | sub | sll | slt | sltu | xor
  | srl | sra | or | and | mul | mulh | mulhsu | mulhu | div | divu | rem | remu | fmvXS | fclassS | fclassD =>
    exact .finishX rfl
  | slli64 | srli64 | srai64 | addiw | slliw | srliw | sraiw | addw | subw | sllw | srlw | sraw | mulw | divw | divuw | remw
  | remuw | fmvXD => exact .onRv64 (.finishX rfl)
  | jal | jalr => exact .jump rfl rfl
  | beq | bne | blt | bge | bltu | bgeu => exact .branch rfl
  | lb | lh | lw | lbu | lhu => exact .load fun _ => .finishX rfl
  | lwu | ld => exact .onRv64 (.load fun _ => .finishX rfl)
  | sb | sh | sw | fsw | fsd => exact .store rfl
  | sd => exact .onRv64 (.store rfl)
  | fence => exact .of_updates .nothing
  | fenceI => exact .of_updates (.fenceFetch .nothing rfl)
  | lrW => exact .loadReserved rfl rfl le_rfl
  | scW => exact .storeConditional rfl rfl rfl
  | amoswapW | amoaddW | amoxorW | amoorW | amoandW | amominW | amomaxW | amominuW | amomaxuW =>
    -- Matching `exec` itself against the shared operation would unfold the operation first and not come back.
    unfold exec
    exact .amo rfl rfl
  | lrD => exact .onRv64 (.loadReserved rfl rfl (by decide))
  | scD => exact .onRv64 (.storeConditional rfl rfl rfl)
  | amoswapD | amoaddD | amoxorD | amoorD | amoandD | amominD | amomaxD | amominuD | amomaxuD =>
    exact .onRv64 (.amo rfl rfl)
  | flw | fld => exact .load fun _ => .finishF rfl
  | fsgnjS | fsgnjnS | fsgnjxS | fmvSX | fsgnjD | fsgnjnD | fsgnjxD => exact .finishF rfl
  | fmvDX => exact .onRv64 (.finishF rfl)
  | fminS | fmaxS => exact .finishF32Flags rfl rfl
  | fminD | fmaxD => exact .finishF64Flags rfl rfl
  | fmaddS | fmsubS | fnmsubS | fnmaddS | faddS | fsubS | fmulS | fdivS | fsqrtS | fcvtSW | fcvtSWu =>
    exact .withRm fun _ => .finishF32Flags rfl rfl
  | fmaddD | fmsubD | fnmsubD | fnmaddD | faddD | fsubD | fmulD | fdivD | fsqrtD | fcvtDW | fcvtDWu =>
    exact .withRm fun _ => .finishF64Flags rfl rfl
  | fcvtSL | fcvtSLu => exact .onRv64 (.withRm fun _ => .finishF32Flags rfl rfl)
  | fcvtDL | fcvtDLu => exact .onRv64 (.withRm fun _ => .finishF64Flags rfl rfl)
  | fleS | fltS | feqS | fleD | fltD | feqD => exact .finishXFlags rfl rfl
  | fcvtWS | fcvtWuS | fcvtWD | fcvtWuD => exact .withRm fun _ => .finishXFlags rfl rfl
  | fcvtLS | fcvtLuS | fcvtLD | fcvtLuD => exact .onRv64 (.withRm fun _ => .finishXFlags rfl rfl)

theorem exec_outcome {i : Instr} {s t : State} (h : exec i s = .next t) : Outcome i s t := exec_answers i s t h

end Sys2Proof.Proofs

/-!
# The invariant of the machine, and what the steps of a run keep (R20 to R32, R72, R227, R388, R420)

First the fetch candidates under a store, then the invariant under each update, each outcome and each step, then the
launch, then the statements about the state.
-/
namespace Sys2Proof.Proofs

open Sys2Proof.Machine Sys2Proof.Laws

/-! ### What an instruction writes and what it leaves -/

section Frame

variable {i : Instr} {s t u : State}

theorem xNat_zero (s : State) : s.xNat 0 = 0 := by
  rw [State.xNat, rX_zero]
  simp

/-- The updates leave the parameters, the pc, the status and the count of fetch draws. -/
theorem Updates.keeps (h : Updates i s u) :
    u.cfg = s.cfg ∧ u.pc = s.pc ∧ u.status = s.status ∧ u.fetchDraws = s.fetchDraws := by
  induction h with
  | nothing => exact ⟨rfl, rfl, rfl, rfl⟩
  | writeX _ _ _ ih | writeF _ _ _ ih | orFlags _ _ _ ih | store _ _ _ _ _ _ ih | reserve _ _ _ _ _ ih
  | fenceFetch _ _ ih => exact ih

theorem Updates.xNat (h : Updates i s u) {r : XReg} (hr : i.xDest ≠ some r) : u.xNat r = s.xNat r := by
  induction h with
  | nothing => rfl
  | writeX _ hrd v ih => exact (rX_wX_other _ (by rintro rfl; exact hr hrd) v).trans ih
  | writeF _ _ _ ih | orFlags _ _ _ ih | store _ _ _ _ _ _ ih | reserve _ _ _ _ _ ih | fenceFetch _ _ ih => exact ih

theorem Updates.rF (h : Updates i s u) {r : FReg} (hr : i.fDest ≠ some r) : u.rF r = s.rF r := by
  induction h with
  | nothing => rfl
  | writeF _ hrd v ih => exact (rF_wF_other _ (by rintro rfl; exact hr hrd) v).trans ih
  | writeX _ _ _ ih | orFlags _ _ _ ih | store _ _ _ _ _ _ ih | reserve _ _ _ _ _ ih | fenceFetch _ _ ih => exact ih

theorem Updates.f (h : Updates i s u) (hi : i.fDest = none) : u.f = s.f := by
  induction h with
  | nothing => rfl
  | writeF _ hrd => simp [hi] at hrd
  | writeX _ _ _ ih | orFlags _ _ _ ih | store _ _ _ _ _ _ ih | reserve _ _ _ _ _ ih | fenceFetch _ _ ih => exact ih

theorem Updates.mem (h : Updates i s u) (hi : i.writesMemory = false) : u.mem = s.mem := by
  induction h with
  | nothing => rfl
  | store _ hw => simp [hi] at hw
  | writeX _ _ _ ih | writeF _ _ _ ih | orFlags _ _ _ ih | reserve _ _ _ _ _ ih | fenceFetch _ _ ih => exact ih

theorem Updates.keepsReservation (h : Updates i s u) (hi : i.touchesReservation = false) : KeepsReservation s u := by
  induction h with
  | nothing => exact ⟨rfl, rfl⟩
  | reserve _ ht => simp [hi] at ht
  | writeX _ _ _ ih | writeF _ _ _ ih | orFlags _ _ _ ih | store _ _ _ _ _ _ ih | fenceFetch _ _ ih => exact ih

theorem Updates.fcsr (h : Updates i s u) (hi : i.allowedInLoop = true) : u.fcsr = s.fcsr := by
  induction h with
  | nothing => rfl
  | orFlags _ hl => simp [hi] at hl
  | writeX _ _ _ ih | writeF _ _ _ ih | store _ _ _ _ _ _ ih | reserve _ _ _ _ _ ih | fenceFetch _ _ ih => exact ih

/-- An outcome differs from the state after some updates in the pc and the status alone. -/
theorem Outcome.exists_updates (h : Outcome i s t) :
    ∃ u, Updates i s u ∧ ∃ (pc : DWord) (status : HartStatus), t = { u with pc := pc, status := status } := by
  cases h with
  | trap => exact ⟨s, .nothing, _, _, rfl⟩
  | advance h | transfer h => exact ⟨_, h, _, _, rfl⟩

/-- The instructions a constrained loop may hold write no floating-point register, no memory and no reservation (R228). -/
theorem writes_of_allowedInLoop (h : i.allowedInLoop = true) :
    i.fDest = none ∧ i.writesMemory = false ∧ i.touchesReservation = false := by
  cases i with
  | lui | auipc | addi | slti | sltiu | xori | ori | andi | slli32 | srli32 | srai32 | add | sub | sll | slt | sltu | xor
  | srl | sra | or | and | slli64 | srli64 | srai64 | addiw | slliw | srliw | sraiw | addw | subw | sllw | srlw | sraw | beq
  | bne | blt | bge | bltu | bgeu | jal => exact ⟨rfl, rfl, rfl⟩
  | _ => cases h

end Frame

/-! ### The fetch candidates under a store (R72) -/

section Unfenced

/-- The order of the fetch candidates, unfolded one byte at a time. -/
theorem Unfenced_wf_cons (c : Nat × List Byte) (u : Unfenced) :
    Unfenced.wf (c :: u) = true ↔
      (∀ d ∈ u, c.1 < d.1) ∧ 2 ≤ c.2.length ∧ c.2.Nodup ∧ Unfenced.wf u = true := by
  simp only [Unfenced.wf, List.pairwise_cons, List.all_cons, Bool.and_eq_true, decide_eq_true_eq]
  tauto

/-- `FetchOk m u`: the fetch candidates `u` are in order, and the byte that the memory `m` holds is among its own. -/
def FetchOk (m : Memory) (u : Unfenced) : Prop := Unfenced.wf u = true ∧ ∀ c ∈ u, memByte m c.1 ∈ c.2

/-- After a store at `a` the candidates of `a` include the stored byte, and those of other bytes are the old ones. -/
theorem mem_noteStore {a : Nat} {old v : Byte} {u : Unfenced} (hu : Unfenced.wf u = true) {d : Nat × List Byte}
    (hd : d ∈ noteStore a old v u) : (d.1 = a ∧ v ∈ d.2) ∨ (d.1 ≠ a ∧ d ∈ u) := by
  induction u with
  | nil =>
    simp only [noteStore] at hd
    split at hd <;> simp_all
  | cons c u ih =>
    obtain ⟨hc, -, -, hu⟩ := (Unfenced_wf_cons c u).1 hu
    have htail : a ≤ c.1 → d ∈ u → d.1 ≠ a := fun hle hd => by have := hc d hd; omega
    have hlater : a < c.1 → d ∈ c :: u → d.1 ≠ a := by
      rintro hlt (_ | ⟨_, hd⟩)
      · exact hlt.ne'
      · exact htail hlt.le hd
    simp only [noteStore] at hd
    split_ifs at hd with hlt hv heq hold
    · exact .inr ⟨hlater hlt hd, hd⟩
    · obtain rfl | hd := List.mem_cons.1 hd
      · exact .inl ⟨rfl, by simp⟩
      · exact .inr ⟨hlater hlt hd, hd⟩
    · obtain rfl | hd := List.mem_cons.1 hd
      · exact .inl ⟨heq.symm, by simpa using hold⟩
      · exact .inr ⟨htail heq.le hd, List.mem_cons_of_mem _ hd⟩
    · obtain rfl | hd := List.mem_cons.1 hd
      · exact .inl ⟨rfl, by simp⟩
      · exact .inr ⟨htail heq.le hd, List.mem_cons_of_mem _ hd⟩
    · obtain rfl | hd := List.mem_cons.1 hd
      · exact .inr ⟨Ne.symm heq, List.mem_cons_self⟩
      · exact (ih hu hd).imp_right fun ⟨hne, hd⟩ => ⟨hne, List.mem_cons_of_mem _ hd⟩

/-- Two different bytes are a list of candidates. -/
theorem candidates_pair {old v : Byte} (h : v ≠ old) : 2 ≤ [old, v].length ∧ [old, v].Nodup := by
  simpa using h.symm

/-- A store keeps the fetch candidates in order, at least two different ones each. -/
theorem noteStore_wf (a : Nat) (old v : Byte) {u : Unfenced} (hu : Unfenced.wf u = true) :
    Unfenced.wf (noteStore a old v u) = true := by
  induction u with
  | nil =>
    simp only [noteStore]
    split_ifs with hv
    · rfl
    · exact (Unfenced_wf_cons _ _).2 ⟨by simp, (candidates_pair hv).1, (candidates_pair hv).2, rfl⟩
  | cons c u ih =>
    obtain ⟨hc, hlen, hnodup, htail⟩ := (Unfenced_wf_cons c u).1 hu
    simp only [noteStore]
    split_ifs with hlt hv heq hold
    · exact hu
    · refine (Unfenced_wf_cons _ _).2 ⟨?_, (candidates_pair hv).1, (candidates_pair hv).2, hu⟩
      rintro d (_ | ⟨_, hd⟩)
      · exact hlt
      · exact hlt.trans (hc d hd)
    · exact hu
    · have hv : v ∉ c.2 := by simpa using hold
      refine (Unfenced_wf_cons _ _).2 ⟨heq ▸ hc, ?_, ?_, htail⟩
      · exact hlen.trans (by simp)
      · exact List.nodup_append.2 ⟨hnodup, by simp, by rintro b hb _ (_ | ⟨_, ⟨⟩⟩) rfl; exact hv hb⟩
    · refine (Unfenced_wf_cons _ _).2 ⟨?_, hlen, hnodup, ih htail⟩
      intro d hd
      obtain ⟨rfl, -⟩ | ⟨-, hd⟩ := mem_noteStore htail hd
      · omega
      · exact hc d hd

/-- A store of one byte keeps the fetch candidates: the byte it stores is one of them. -/
theorem FetchOk.store {m : Memory} {u : Unfenced} (h : FetchOk m u) (hm : Memory.wf m = true) (a : Nat) (v : Byte) :
    FetchOk (memInsert a v m) (noteStore a (memByte m a) v u) := by
  refine ⟨noteStore_wf _ _ _ h.1, fun d hd => ?_⟩
  obtain ⟨rfl, hv⟩ | ⟨hne, hd⟩ := mem_noteStore h.1 hd
  · rwa [memByte_memInsert_same _ _ _ hm]
  · rw [memByte_memInsert_other hne]
    exact h.2 d hd

theorem FetchOk.storeBytes (cs : List Host.Cell) {mu : Memory × Unfenced} (h : FetchOk mu.1 mu.2)
    (hm : Memory.wf mu.1 = true) : FetchOk (storeBytes cs mu).1 (storeBytes cs mu).2 := by
  induction cs generalizing mu with
  | nil => exact h
  | cons c cs ih => exact ih (h.store hm c.1 c.2) (memInsert_wf _ _ _ hm)

/-- Stored bytes go to memory as placed ones do. -/
theorem storeBytes_fst (cs : List Host.Cell) (mu : Memory × Unfenced) :
    (storeBytes cs mu).1 = placeCells cs mu.1 := by
  induction cs generalizing mu with
  | nil => rfl
  | cons c cs ih => exact ih _

theorem memWrite_mem (s : State) {w k : Nat} (a : BitVec w) (n : Nat) (v : BitVec k) :
    (s.memWrite a n v).mem = placeCells (storeCells a n v) s.mem := storeBytes_fst _ _

/-- Every cell after some are placed is a placed one or an old one. -/
theorem mem_placeCells {cs : List Host.Cell} {m : Memory} {d : Host.Cell} (hd : d ∈ placeCells cs m) :
    d ∈ cs ∨ d ∈ m := by
  induction cs generalizing m with
  | nil => exact .inr hd
  | cons c cs ih =>
    obtain hd | hd := ih hd
    · exact .inl (List.mem_cons_of_mem _ hd)
    · obtain rfl | hd := mem_memInsert hd
      · exact .inl List.mem_cons_self
      · exact .inr hd

end Unfenced

/-! ### The invariant under each update (R20 to R32, R227, R388) -/

section Inv

variable {s : State}

/-- A multiple of 4 stays one modulo 2^XLEN. -/
theorem mod_span_mod_four {a : Nat} (xl : XLen) (h : a % 4 = 0) : a % 2 ^ xl.bits % 4 = 0 := by
  rw [Nat.mod_mod_of_dvd _ (by cases xl <;> decide), h]

/-- What a write leaves in a register's container has XLEN bits (R20). -/
theorem container_lt (xl : XLen) {n : Nat} (v : BitVec n) :
    ((v.setWidth xl.bits).setWidth 64).toNat < 2 ^ xl.bits := by
  rw [BitVec.toNat_setWidth]
  exact (Nat.mod_le _ _).trans_lt (BitVec.isLt _)

theorem Inv.writeX (hs : s.Inv) (rd : XReg) {n : Nat} (v : BitVec n) : (s.wX rd v).Inv :=
  { hs with
    xWidth := fun j => by
      simp only [State.wX, State.span]
      split
      · exact hs.xWidth j
      · simp only [Fin.getElem_fin, Vector.getElem_set]
        split
        · exact container_lt _ v
        · exact hs.xWidth j }

theorem Inv.writeF (hs : s.Inv) (rd : FReg) (v : DWord) : (s.wF rd v).Inv := { hs with }

theorem Inv.orFlags (hs : s.Inv) (m : FFlags) : (s.orFlags m).Inv :=
  { hs with
    fcsrReserved := by
      have hm : (m.setWidth 32).toNat < 2 ^ 8 := by
        have := m.isLt
        simp only [BitVec.toNat_setWidth]
        omega
      rw [orFlags_fcsr, BitVec.toNat_or]
      exact Nat.or_lt_two_pow hs.fcsrReserved hm }

theorem Inv.memWrite (hs : s.Inv) {w k : Nat} (a : BitVec w) (n : Nat) (v : BitVec k)
    (hmap : ∀ b ∈ byteAddrs a n, s.cfg.mapped b = true) : (s.memWrite a n v).Inv :=
  have hfetch : FetchOk (s.memWrite a n v).mem (s.memWrite a n v).unfenced :=
    FetchOk.storeBytes (mu := (s.mem, s.unfenced)) _ ⟨hs.unfencedOrder, hs.unfencedCurrent⟩ hs.memory
  { hs with
    memory := memWrite_wf s a n v hs.memory
    mapped := fun c hc => by
      rw [memWrite_mem] at hc
      obtain hc | hc := mem_placeCells hc
      · exact hmap c.1 (storeCells_addrs a n v ▸ List.mem_map_of_mem hc)
      · exact hs.mapped c hc
    unfencedOrder := hfetch.1
    unfencedCurrent := hfetch.2 }

theorem Inv.reserve (hs : s.Inv) (r : Option Reservation) (draws : Nat)
    (hr : ∀ q, r = some q → q.base.toNat < s.span ∧ 4 ≤ q.size) :
    ({ s with reservation := r, scDraws := draws } : State).Inv :=
  { hs with reservationWidth := hr }

theorem Inv.fetchFence (hs : s.Inv) : (fetchFence s).Inv :=
  { hs with unfencedOrder := rfl, unfencedCurrent := nofun }

theorem Inv.takeTrap (hs : s.Inv) (e : Exc) (v : DWord) : (s.takeTrap e v).Inv :=
  { hs with trapPc := by rintro _ _ _ ⟨⟩; rfl }

/-- A running hart may go to any multiple of 4. -/
theorem Inv.setPc (hs : s.Inv) (hrun : s.status = .running) {n : Nat} {target : BitVec n}
    (haligned : (s.setPc target).pc.toNat % 4 = 0) : (s.setPc target).Inv :=
  { hs with
    pcAligned := haligned
    pcWidth := by
      rw [setPc_toNat]
      exact Nat.mod_lt _ (Nat.two_pow_pos _)
    trapPc := fun e v p h => by
      rw [setPc_status, hrun] at h
      cases h }

end Inv

/-! ### The invariant under an instruction and a step (R11, R403) -/

section Step

variable {i : Instr} {s t u : State}

theorem Updates.inv (h : Updates i s u) (hs : s.Inv) : u.Inv := by
  induction h with
  | nothing => exact hs
  | writeX _ _ v ih => exact Inv.writeX ih _ v
  | writeF _ _ v ih => exact Inv.writeF ih _ v
  | orFlags _ _ m ih => exact Inv.orFlags ih m
  | store _ _ a n v hmap ih => exact Inv.memWrite ih a n v hmap
  | reserve _ _ r draws hr ih => exact Inv.reserve ih r draws hr
  | fenceFetch _ _ ih => exact Inv.fetchFence ih

/-- The advance and every control transfer lead from a multiple of 4 to a multiple of 4; a trap keeps the pc (R24). -/
theorem Outcome.pc_mod_four (h : Outcome i s t) (hpc : s.pc.toNat % 4 = 0) : t.pc.toNat % 4 = 0 := by
  cases h with
  | trap => exact hpc
  | advance h =>
    obtain ⟨-, hpcu, -, -⟩ := h.keeps
    rw [advance_toNat, hpcu]
    exact mod_span_mod_four _ (by omega)
  | transfer h _ haligned =>
    rw [setPc_toNat]
    exact mod_span_mod_four _ haligned

/-- An instruction of a running hart keeps the invariant. -/
theorem Outcome.inv (h : Outcome i s t) (hs : s.Inv) (hrun : s.status = .running) : t.Inv := by
  have hpc := h.pc_mod_four hs.pcAligned
  cases h with
  | trap e v => exact Inv.takeTrap hs e v
  | advance h | transfer h =>
    obtain ⟨-, -, hstatus, -⟩ := h.keeps
    exact Inv.setPc (h.inv hs) (hstatus.trans hrun) hpc

/-- Fetched bytes that spell no instruction trap; others run one. -/
theorem runBytes_cases {bs : List Byte} (h : runBytes s bs = .next t) :
    (∃ i, exec i s = .next t) ∨ ∃ e v, t = s.takeTrap e v := by
  unfold runBytes at h
  split at h
  · exact .inl ⟨_, h⟩
  · exact .inr ⟨_, _, (Host.Outcome.next.inj h).symm⟩
  · exact .inr ⟨_, _, (Host.Outcome.next.inj h).symm⟩

/-- Everything a step can answer: a running hart stops, traps, or runs an instruction after some fetch draws (R11). -/
theorem step_cases (h : step s = .next t) :
    s.status = .running ∧
      (t = { s with status := .stopped } ∨
        ∃ draws, (∃ i, exec i { s with fetchDraws := draws } = .next t) ∨
          ∃ e v, t = ({ s with fetchDraws := draws } : State).takeTrap e v) := by
  unfold step cycle at h
  split at h
  · cases h
  · cases h
  · next hrun =>
    refine ⟨hrun, ?_⟩
    split_ifs at h
    · exact .inl (Host.Outcome.next.inj h).symm
    · exact .inr ⟨_, runBytes_cases h⟩
    · exact .inr ⟨s.fetchDraws, .inr ⟨_, _, (Host.Outcome.next.inj h).symm⟩⟩

end Step

/-! ### The launch (R35, R420, R421) -/

/-- What an admitted launch leaves, field by field. -/
theorem launch_next {l : Launch} {s : State} (h : State.launch l = .next s) :
    l.ok = true ∧ s.cfg = l.cfg ∧ s.pc = l.cfg.resetPc ∧ s.f = l.fInit ∧
      s.x = l.xInit.map (fun v => (v.setWidth l.cfg.xlen.bits).setWidth 64) ∧
      s.fcsr = (0 : BitVec 24) ++ l.frmInit ++ l.fflagsInit ∧ s.mem = placeCells l.image [] ∧
      s.reservation = none ∧ s.status = .running ∧ s.unfenced = [] := by
  unfold State.launch at h
  split at h
  · cases h
    exact ⟨by assumption, rfl, rfl, rfl, rfl, rfl, rfl, rfl, rfl, rfl⟩
  · cases h

/-- An admitted launch starts at an XLEN-bit multiple of 4 and places its image inside MEM_MAP (R398, R420). -/
theorem launch_ok_bounds {l : Launch} (h : l.ok = true) :
    l.cfg.resetPc.toNat < 2 ^ l.cfg.xlen.bits ∧ l.cfg.resetPc.toNat % 4 = 0 ∧
      ∀ c ∈ l.image, l.cfg.mapped c.1 = true := by
  simp only [Launch.ok, Config.wf, Config.codeAddress, Bool.and_eq_true, decide_eq_true_eq, List.all_eq_true] at h
  obtain ⟨⟨-, hwidth, haligned⟩, himage⟩ := h
  exact ⟨hwidth, haligned, himage⟩

/-- The launch value of `fcsr` has its reserved bits zero (R28). -/
theorem fcsr_lt (frm : Rm) (fl : FFlags) : ((0 : BitVec 24) ++ frm ++ fl).toNat < 256 := by
  have hfrm := frm.isLt
  have hfl := fl.isLt
  have hhigh : ((0 : BitVec 24) ++ frm).toNat = frm.toNat := by
    rw [BitVec.toNat_append]
    simp
  rw [BitVec.toNat_append, hhigh, ← Nat.shiftLeft_add_eq_or_of_lt hfl, Nat.shiftLeft_eq]
  omega

theorem launch_inv {l : Launch} {s : State} (h : State.launch l = .next s) : s.Inv := by
  obtain ⟨hok, hcfg, hpc, -, hx, hfcsr, hmem, hres, hstatus, hunf⟩ := launch_next h
  obtain ⟨hwidth, haligned, himage⟩ := launch_ok_bounds hok
  exact
    { memory := by rw [hmem]; exact placeCells_wf _ _ rfl
      mapped := fun c hc => by
        obtain hc | hc := mem_placeCells (hmem ▸ hc)
        · exact hcfg ▸ himage c hc
        · cases hc
      pcAligned := by rwa [hpc]
      pcWidth := by rwa [State.span, hpc, hcfg]
      xWidth := fun j => by
        simp only [hx, State.span, hcfg, Fin.getElem_fin, Vector.getElem_map]
        exact container_lt _ _
      fcsrReserved := by
        rw [hfcsr]
        exact fcsr_lt _ _
      unfencedOrder := by rw [hunf]; rfl
      unfencedCurrent := by rw [hunf]; nofun
      reservationWidth := by rw [hres]; nofun
      trapPc := by rw [hstatus]; nofun }

/-- The reset state is the launch of the model's reset parameters (R35, R421). -/
theorem launch_resetLaunch : State.launch resetLaunch = .next State.reset := by
  have hok : resetLaunch.ok = true := by decide
  have hx : (Vector.replicate 31 (0 : DWord)).map (fun v => (v.setWidth 64).setWidth 64) = Vector.replicate 31 0 := by
    simp
  rw [State.launch, if_pos hok]
  exact congrArg (fun x => (.next { State.reset with x := x } : Res)) hx

/-! ### The obligations of 10_state.md -/

/-- Settles O56: a step stops the hart, takes a trap, or runs one instruction, whose updates keep the invariant one by
one. -/
theorem stepKeepsTheInvariant : Obligations.StepKeepsTheInvariant := by
  intro s t hs hstep
  obtain ⟨hrun, rfl | ⟨draws, ⟨i, hexec⟩ | ⟨e, v, rfl⟩⟩⟩ := step_cases hstep
  · exact { hs with trapPc := nofun }
  · have hdrawn : ({ s with fetchDraws := draws } : State).Inv := { hs with }
    exact (exec_outcome hexec).inv hdrawn hrun
  · have hdrawn : ({ s with fetchDraws := draws } : State).Inv := { hs with }
    exact Inv.takeTrap hdrawn e v

/-- The invariant holds along every run that starts with it. -/
theorem reachable_inv {s t : State} (hs : s.Inv) (h : Reachable s t) : t.Inv := by
  induction h with
  | here => exact hs
  | after _ hstep ih => exact stepKeepsTheInvariant _ _ ih hstep

/-- Without control transfer and without a trap the pc advances by 4 modulo 2^XLEN (R24). -/
theorem exec_pc_of_running {i : Instr} {s t : State} (hi : i.transfersControl = false) (h : exec i s = .next t)
    (hrun : t.status = .running) : t.pc.toNat = (s.pc.toNat + 4) % 2 ^ s.cfg.xlen.bits := by
  cases exec_outcome h with
  | trap => cases hrun
  | advance hu =>
    obtain ⟨hcfg, hpc, -, -⟩ := hu.keeps
    rw [advance_toNat, hpc, hcfg]
  | transfer _ htransfer => simp [hi] at htransfer

/-- Settles O15: the pc moves by the advance, by a transfer to a multiple of 4, or, in a trap, not at all; along a run it is
aligned by the invariant. -/
theorem pcAdvancesByFour : Obligations.PcAdvancesByFour := by
  refine ⟨fun i s t _ hi h hrun => exec_pc_of_running hi h hrun, ?_, ?_, ?_⟩
  · intro i s t _ hi h hrun htop
    have hspan : 4 ≤ 2 ^ s.cfg.xlen.bits := by cases s.cfg.xlen <;> decide
    rw [exec_pc_of_running hi h hrun, htop, Nat.sub_add_cancel hspan, Nat.mod_self]
  · exact fun l s t hlaunch h => (reachable_inv (launch_inv hlaunch) h).pcAligned
  · intro i s t _ h hpc
    have hout := exec_outcome h
    refine ⟨hout.pc_mod_four hpc, fun hstatus => ?_⟩
    cases hout with
    | trap => rfl
    | advance hu | transfer hu =>
      obtain ⟨-, -, hkeep, -⟩ := hu.keeps
      exact absurd hkeep hstatus

/-- Settles O53: an outcome is the state after updates that the instruction's kind allows, with another pc and status. -/
theorem instructionsWriteOnlyTheirDestinations : Obligations.InstructionsWriteOnlyTheirDestinations := by
  refine ⟨xNat_zero, fun i s t h => ?_⟩
  obtain ⟨u, hu, pc, status, rfl⟩ := (exec_outcome h).exists_updates
  obtain ⟨hcfg, -, -, hdraws⟩ := hu.keeps
  refine ⟨hcfg, hdraws, fun r => hu.xNat, fun hzero r => ?_, fun r => hu.rF, hu.mem, hu.keepsReservation,
    fun hloop => ?_⟩
  · by_cases hr : r = 0
    · rw [hr, xNat_zero, xNat_zero]
    · exact hu.xNat (r := r) (by simpa [hzero] using Ne.symm hr)
  · obtain ⟨hf, hmem, hres⟩ := writes_of_allowedInLoop hloop
    exact ⟨hu.mem hmem, (hu.keepsReservation hres).1, hu.f hf, hu.fcsr hloop⟩

/-- Settles O55: the launch leaves what the host chose, and the reset state is a launch. -/
theorem resetStateSatisfiesTheInvariant : Obligations.ResetStateSatisfiesTheInvariant := by
  refine ⟨launch_inv launch_resetLaunch, launch_resetLaunch, fun l s h => ?_⟩
  obtain ⟨-, -, hpc, hf, -, hfcsr, -, hres, hstatus, hunf⟩ := launch_next h
  refine ⟨launch_inv h, hpc, hres, hstatus, ?_, ?_, hf, hunf⟩
  · rw [State.frm, hfcsr, BitVec.extractLsb'_append_eq_of_le (by decide),
      BitVec.extractLsb'_append_eq_of_add_le (by decide)]
    exact BitVec.extractLsb'_eq_self
  · rw [State.fflags, hfcsr, BitVec.extractLsb'_append_eq_of_add_le (by decide)]
    exact BitVec.extractLsb'_eq_self

end Sys2Proof.Proofs

/-!
# Addresses, memory bytes and what a fetch sees of them (R10, R50 to R52, R60, R61, R69 to R72, R226)

First the addresses of an access as numbers, then little-endian values in memory, then the canonical form of memory, then
the candidates of a fetch and the rows of XLEN = 64, then the statements of 20_memory.md.
-/
namespace Sys2Proof.Proofs

open Sys2Proof.Machine Sys2Proof.Laws

/-! ### Addresses modulo the space (R8, R50, R61) -/

/-- The XLEN-bit pattern of an integer has the number that the statements call `ofInt` (R8). -/
theorem toNat_ofInt_span (s : State) (v : Int) : (BitVec.ofInt s.cfg.xlen.bits v).toNat = s.ofInt v :=
  BitVec.toNat_ofInt v

/-- The effective address is the pattern of an integer sum (R61). -/
theorem ea_eq_ofInt (s : State) (rs1 : XReg) (imm : BitVec 12) :
    s.ea rs1 imm = BitVec.ofInt s.cfg.xlen.bits (s.xInt rs1 + imm.toInt) := by
  rw [BitVec.ofInt_add, State.xInt, BitVec.ofInt_toInt]
  rfl

/-- The bytes of an access follow each other modulo the address space (R50). -/
theorem byteAddrs_eq {w : Nat} (a : BitVec w) (n : Nat) :
    byteAddrs a n = (List.range n).map fun k => (a.toNat + k) % 2 ^ w := by
  simp only [byteAddrs, BitVec.toNat_add, BitVec.toNat_ofNat, Nat.add_mod_mod]

/-- The instruction bytes follow each other from the pc, modulo the address space (R52). -/
theorem fetchAddrs_eq (s : State) :
    s.fetchAddrs = (List.range 4).map fun k => (s.pc.toNat + k) % s.span := by
  simp only [State.fetchAddrs, byteAddrs_eq, rPc_toNat, Nat.mod_add_mod, State.span]

/-! ### Little-endian values in memory (R10, R51) -/

theorem leNat_append_singleton (bs : List Byte) (b : Byte) :
    leNat (bs ++ [b]) = leNat bs + 256 ^ bs.length * b.toNat := by
  induction bs with
  | nil => simp [leNat]
  | cons c bs ih =>
    simp only [List.cons_append, leNat, ih, List.length_cons]
    ring

/-- Byte `i` of a value is its digit `i` in base 256 (R51). -/
theorem toNat_extractByte {k : Nat} (v : BitVec k) (i : Nat) :
    (v.extractLsb' (8 * i) 8).toNat = v.toNat / 256 ^ i % 256 := by
  rw [BitVec.extractLsb'_toNat, Nat.shiftRight_eq_div_pow, Nat.pow_mul]

@[simp] theorem storeCells_length {w k : Nat} (a : BitVec w) (n : Nat) (v : BitVec k) :
    (storeCells a n v).length = n := by
  simp [storeCells]

/-- One more byte of a store is its next cell. -/
theorem storeCells_succ {w k : Nat} (a : BitVec w) (n : Nat) (v : BitVec k) :
    storeCells a (n + 1) v = storeCells a n v ++ [((a + BitVec.ofNat w n).toNat, v.extractLsb' (8 * n) 8)] := by
  simp [storeCells, List.range_succ]

/-- The bytes that a store of `n` bytes writes spell the low `n` bytes of its value (R51). -/
theorem leNat_storeCells {w k : Nat} (a : BitVec w) (n : Nat) (v : BitVec k) :
    leNat ((storeCells a n v).map Prod.snd) = v.toNat % 256 ^ n := by
  induction n with
  | zero => simp [storeCells, leNat, Nat.mod_one]
  | succ n ih =>
    rw [storeCells_succ, List.map_append, List.map_singleton, leNat_append_singleton, ih, toNat_extractByte,
      List.length_map, storeCells_length, Nat.mod_pow_succ]

/-- The bytes of a store no longer than the address space read back as the low bytes of its value (R51, R60). -/
theorem bytesNat_memWrite (s : State) (hm : Memory.wf s.mem = true) {w k : Nat} (a : BitVec w) {n : Nat} (hn : n ≤ 2 ^ w)
    (v : BitVec k) : (s.memWrite a n v).bytesNat (byteAddrs a n) = v.toNat % 256 ^ n := by
  have hread := map_memByte_placeCells (by rw [storeCells_addrs a n v]; exact byteAddrs_nodup a hn) hm
  rw [storeCells_addrs] at hread
  rw [State.bytesNat, memWrite_mem, hread, leNat_storeCells]

/-- A read after a write of the same `n` bytes gives the value (R60). -/
theorem memRead_memWrite (s : State) (hm : Memory.wf s.mem = true) {w : Nat} (a : BitVec w) {n : Nat} (hn : n ≤ 2 ^ w)
    (v : BitVec (8 * n)) : (s.memWrite a n v).memRead a n = v := by
  have hv : v.toNat < 256 ^ n := Nat.pow_mul 2 8 n ▸ v.isLt
  have hbytes := bytesNat_memWrite s hm a hn v
  rw [Nat.mod_eq_of_lt hv] at hbytes
  exact (congrArg (BitVec.ofNat (8 * n)) hbytes).trans ((BitVec.ofNat_toNat _ v).trans (BitVec.setWidth_eq v))

/-- An access of at most eight bytes is no longer than the address space. -/
theorem le_span_of_le_eight {n : Nat} (xl : XLen) (hn : n ≤ 8) : n ≤ 2 ^ xl.bits :=
  hn.trans (by cases xl <;> decide)

/-! ### The canonical form of memory (R32) -/

/-- Canonical memory lists exactly the bytes that differ from an unlisted one. -/
theorem mem_iff_memByte {m : Memory} (hm : Memory.wf m = true) (c : Host.Cell) :
    c ∈ m ↔ memByte m c.1 = c.2 ∧ c.2 ≠ Memory.unlisted := by
  induction m with
  | nil => simp [memByte_nil, eq_comm]
  | cons d m ih =>
    obtain ⟨hlt, hlisted, htail⟩ := (Memory_wf_cons d m).1 hm
    rw [List.mem_cons, memByte_cons]
    split_ifs with haddr
    · have hnot : c ∉ m := fun hc => (hlt c hc).ne' haddr
      constructor
      · rintro (rfl | hc)
        · exact ⟨rfl, hlisted⟩
        · exact absurd hc hnot
      · rintro ⟨hval, -⟩
        exact .inl (Prod.ext haddr hval.symm)
    · rw [← ih htail, or_iff_right]
      rintro rfl
      exact haddr rfl

/-- Canonical memories that read alike everywhere are the same list: both rise strictly and list the same cells. -/
theorem memory_ext {m m' : Memory} (hm : Memory.wf m = true) (hm' : Memory.wf m' = true)
    (h : ∀ a, memByte m a = memByte m' a) : m = m' := by
  have hcells : ∀ c, c ∈ m ↔ c ∈ m' := fun c => by rw [mem_iff_memByte hm, mem_iff_memByte hm', h]
  have hantisymm : Std.Antisymm fun c d : Host.Cell => c.1 < d.1 := ⟨fun _ _ hcd hdc => absurd hcd hdc.not_gt⟩
  have hirrefl : Std.Irrefl fun c d : Host.Cell => c.1 < d.1 := ⟨fun _ => lt_irrefl _⟩
  simp only [Memory.wf, Bool.and_eq_true, decide_eq_true_eq] at hm hm'
  exact hm.1.eq_of_mem_iff hm'.1 hcells

/-! ### The candidates of a fetch (R72) -/

theorem unfenced_lookup_cons (c : Nat × List Byte) (u : Unfenced) (a : Nat) :
    (c :: u).lookup a = if a = c.1 then some c.2 else u.lookup a := by
  by_cases h : a = c.1
  · rw [if_pos h, h]
    exact List.lookup_cons_self
  · rw [List.lookup_cons, beq_false_of_ne h, if_neg h]

/-- An address below every recorded one is not recorded. -/
theorem unfenced_lookup_lt {u : Unfenced} {a : Nat} (h : ∀ d ∈ u, a < d.1) : u.lookup a = none :=
  List.lookup_eq_none_iff.2 fun d hd => by simpa using (h d hd).ne

/-- What a store records for its own address: nothing when fetches already see the stored byte, else that byte after what
was recorded, or after the byte it replaces. -/
theorem noteStore_lookup_same (a : Nat) (old v : Byte) {u : Unfenced} (hu : Unfenced.wf u = true) :
    (noteStore a old v u).lookup a =
      (u.lookup a).elim (if v = old then none else some [old, v])
        fun cs => some (if v ∈ cs then cs else cs ++ [v]) := by
  induction u with
  | nil =>
    simp only [noteStore]
    split_ifs <;> simp
  | cons c u ih =>
    obtain ⟨hlt, -, -, htail⟩ := (Unfenced_wf_cons c u).1 hu
    obtain hbelow | haddr | habove := lt_trichotomy a c.1
    · have hnone : (c :: u).lookup a = none :=
        unfenced_lookup_lt (List.forall_mem_cons.2 ⟨hbelow, fun d hd => hbelow.trans (hlt d hd)⟩)
      rw [noteStore, if_pos hbelow, hnone, Option.elim_none]
      split_ifs
      · exact hnone
      · rw [unfenced_lookup_cons, if_pos rfl]
    · rw [noteStore, if_neg haddr.not_lt, if_pos haddr, unfenced_lookup_cons c, if_pos haddr, Option.elim_some]
      by_cases hold : v ∈ c.2
      · rw [if_pos (List.contains_iff_mem.2 hold), if_pos hold, unfenced_lookup_cons, if_pos haddr]
      · rw [if_neg (List.contains_iff_mem.not.2 hold), if_neg hold, unfenced_lookup_cons, if_pos rfl]
    · rw [noteStore, if_neg habove.not_gt, if_neg habove.ne', unfenced_lookup_cons, unfenced_lookup_cons,
        if_neg habove.ne', if_neg habove.ne', ih htail]

/-- Recorded candidates are never empty. -/
theorem candidates_ne_nil {u : Unfenced} (hu : Unfenced.wf u = true) {a : Nat} {cs : List Byte}
    (h : u.lookup a = some cs) : cs ≠ [] := by
  induction u with
  | nil => cases h
  | cons c u ih =>
    obtain ⟨-, hlen, -, htail⟩ := (Unfenced_wf_cons c u).1 hu
    rw [unfenced_lookup_cons] at h
    split_ifs at h
    · cases h
      exact List.length_pos_iff.1 (by omega)
    · exact ih htail h

/-- A fetch sees one of the recorded candidates of a byte, or memory where nothing is recorded. -/
theorem fetchByte_mem_candidates (m : Memory) {u : Unfenced} (hu : Unfenced.wf u = true) (draws a : Nat) :
    (fetchByte m u draws a).1 ∈ (u.lookup a).getD [memByte m a] := by
  unfold fetchByte
  split
  · next hnone => simp [hnone]
  · next cs hsome =>
    have hlen : 0 < cs.length := List.length_pos_iff.2 (candidates_ne_nil hu hsome)
    simp only [hsome, Option.getD_some, List.getD_eq_getElem _ _ (Nat.mod_lt _ hlen)]
    exact List.getElem_mem _

/-- After a store of one byte a fetch of it sees the stored byte, or one that fetches saw before. -/
theorem fetchByte_noteStore_mem {m : Memory} (hm : Memory.wf m = true) {u : Unfenced} (hu : Unfenced.wf u = true)
    (draws a : Nat) (v : Byte) :
    (fetchByte (memInsert a v m) (noteStore a (memByte m a) v u) draws a).1
      ∈ v :: (u.lookup a).getD [memByte m a] := by
  have hsees := fetchByte_mem_candidates (memInsert a v m) (noteStore_wf a (memByte m a) v hu) draws a
  rw [memByte_memInsert_same _ _ _ hm, noteStore_lookup_same a _ v hu] at hsees
  generalize (fetchByte _ _ draws a).1 = b at hsees ⊢
  cases hlook : u.lookup a with
  | none =>
    rw [hlook, Option.elim_none] at hsees
    split_ifs at hsees
    · exact List.mem_cons.2 (.inl (List.mem_singleton.1 hsees))
    · exact List.mem_pair.2 (List.mem_pair.1 hsees).symm
  | some cs =>
    rw [hlook, Option.elim_some] at hsees
    split_ifs at hsees
    · exact List.mem_cons_of_mem v hsees
    · exact List.mem_cons.2 ((List.mem_append.1 hsees).symm.imp_left List.mem_singleton.1)

/-! ### The rows of XLEN = 64 (R113) -/

/-- At XLEN = 64 the word of a 64-bit row, which is the trap value of that row at XLEN = 32, plays no part. -/
theorem onRv64_congr {s : State} (h : s.cfg.xlen = .rv64) (i j : Instr) (k : Res) : onRv64 s i k = onRv64 s j k :=
  (onRv64_of_rv64 h i k).trans (onRv64_of_rv64 h j k).symm

/-! ### The obligations of 20_memory.md -/

/-- Settles O9: the four bytes follow each other from the pc, and none of them has candidates. -/
theorem fencedFetchReadsMemory : Obligations.FencedFetchReadsMemory := by
  intro s hfenced
  rw [State.fetch, fetchBytes_of_fenced s.mem s.fetchDraws hfenced, fetchAddrs_eq]
  rfl

/-- Settles O10: a store adds its byte to the candidates, FENCE.I drops them all. -/
theorem unfencedFetchIsACandidate : Obligations.UnfencedFetchIsACandidate :=
  ⟨fun _ _ draws a v hm hu => fetchByte_noteStore_mem hm hu draws a v, fun s =>
    ⟨(fetchFence s).advance, rfl, advance_toNat _, rfl, rfl, rfl, rfl, rfl, rfl, ⟨rfl, rfl⟩, rfl,
      fun draws _ => fetchByte_of_fenced s.mem draws nofun⟩⟩

/-- Settles O54: the bytes of an access are different ones, so each holds the byte stored there last. -/
theorem memoryReadsBackWhatWasWritten : Obligations.MemoryReadsBackWhatWasWritten :=
  ⟨fun s a n v hn hm => ⟨memRead_memWrite s hm a (le_span_of_le_eight _ hn) v, memWrite_wf s a n v hm,
    fun _ hb => memByte_memWrite_other s a n v hb⟩, fun _ _ => memory_ext⟩

/-- Settles O22: both additions are those of XLEN-bit patterns. -/
theorem accessBytesAreConsecutiveModuloTheSpace : Obligations.AccessBytesAreConsecutiveModuloTheSpace := fun s rs1 imm =>
  ⟨(congrArg BitVec.toNat (ea_eq_ofInt s rs1 imm)).trans (toNat_ofInt_span s _), byteAddrs_eq⟩

/-- Settles O26: no meaning reads `aq` or `rl`, but for the trap value of a 64-bit row at XLEN = 32. -/
theorem orderingBitsAndFenceHaveNoEffectOnOneHart : Obligations.OrderingBitsAndFenceHaveNoEffectOnOneHart := by
  refine ⟨fun s pred succ => ⟨s.advance, rfl, advance_toNat s, rfl⟩, fun s rd rs2 rs1 aq rl => ?_⟩
  refine ⟨rfl, rfl, rfl, rfl, rfl, rfl, rfl, rfl, rfl, rfl, rfl, fun h => ?_⟩
  have hD := onRv64_congr h
  exact ⟨hD _ _ _, hD _ _ _, hD _ _ _, hD _ _ _, hD _ _ _, hD _ _ _, hD _ _ _, hD _ _ _, hD _ _ _, hD _ _ _, hD _ _ _⟩

end Sys2Proof.Proofs

/-!
# The decoder and the encoder (R90 to R113, R123)

First the words that match a row and why no word matches two, then the words of each format from their fields, then the
rows, each of which fixes every bit that is no operand's, then the two round trips.
-/
namespace Sys2Proof.Proofs

open Sys2Proof.Machine Sys2Proof.Laws

/-! ### Words that match a row (R110) -/

section Rows

variable {r q : Row} {xl : XLen} {w : Word} {i : Instr}

/-- A word is a row's when the XLEN column admits the width and the row's fixed bits are those of the word (R110). -/
theorem isRowOf_iff : r.isRowOf xl w = true ↔ r.xlens.admits xl = true ∧ w &&& r.mask = r.value := by
  simp [Row.isRowOf]

/-- Two patterns that one word matches agree in the bits that both fix. -/
theorem patterns_agree {n : Nat} {w m m' v v' : BitVec n} (h : w &&& m = v) (h' : w &&& m' = v') :
    v &&& m' = v' &&& m := by
  rw [← h, ← h', BitVec.and_assoc, BitVec.and_assoc, BitVec.and_comm m]

/-- A field that a pattern fixes whole has in every matching word the value the pattern gives it. -/
theorem extractLsb'_of_pattern {n : Nat} {w m v : BitVec n} (h : w &&& m = v) {lo len : Nat}
    (hm : m.extractLsb' lo len = BitVec.allOnes len := by decide) : w.extractLsb' lo len = v.extractLsb' lo len := by
  rw [← h, BitVec.extractLsb'_and, hm, BitVec.and_allOnes]

/-- Two rows exist at a common width and agree in the bits that both fix. -/
def rowsOverlap (r q : Row) : Bool :=
  ([XLen.rv32, .rv64].any fun xl => r.xlens.admits xl && q.xlens.admits xl) && r.value &&& q.mask == q.value &&& r.mask

theorem rowsOverlap_of_isRowOf (hr : r.isRowOf xl w = true) (hq : q.isRowOf xl w = true) : rowsOverlap r q = true := by
  obtain ⟨hrx, hrw⟩ := isRowOf_iff.1 hr
  obtain ⟨hqx, hqw⟩ := isRowOf_iff.1 hq
  have hbits := patterns_agree hrw hqw
  cases xl <;> simp [rowsOverlap, hrx, hqx, hbits]

/-- No two rows overlap: a fact about the masks and values of the table alone. -/
theorem opcodeTable_pairwise : opcodeTable.Pairwise fun r q => rowsOverlap r q = false := by decide +kernel

/-- Of two rows of one word, neither stands before the other. -/
theorem not_lt_of_isRowOf {j k : Nat} (hj : opcodeTable[j]? = some r) (hk : opcodeTable[k]? = some q)
    (hr : r.isRowOf xl w = true) (hq : q.isRowOf xl w = true) : ¬j < k := by
  intro hlt
  obtain ⟨hjlt, rfl⟩ := List.getElem?_eq_some_iff.1 hj
  obtain ⟨hklt, rfl⟩ := List.getElem?_eq_some_iff.1 hk
  have hapart := List.pairwise_iff_getElem.1 opcodeTable_pairwise j k hjlt hklt hlt
  simp [rowsOverlap_of_isRowOf hr hq] at hapart

/-- Settles O4: two rows of one word overlap, and no two rows at different positions do. -/
theorem atMostOneRowMatches : Obligations.AtMostOneRowMatches := fun _ _ _ _ _ _ hj hk hr hq =>
  le_antisymm (Nat.not_lt.1 (not_lt_of_isRowOf hk hj hq hr)) (Nat.not_lt.1 (not_lt_of_isRowOf hj hk hr hq))

/-- A word of a row decodes to what that row builds: no other row can be found first. -/
theorem decode_of_isRowOf (hr : r ∈ opcodeTable) (hw : r.isRowOf xl w = true) : decode xl w = some (r.build w) := by
  unfold decode
  cases hfind : opcodeTable.find? (·.isRowOf xl w) with
  | none => exact absurd hw (List.find?_eq_none.1 hfind r hr)
  | some q =>
    obtain ⟨j, hj⟩ := List.getElem?_of_mem hr
    obtain ⟨k, hk⟩ := List.getElem?_of_mem (List.mem_of_find?_eq_some hfind)
    obtain rfl := atMostOneRowMatches xl w j k r q hj hk hw (List.find?_some (p := fun q : Row => q.isRowOf xl w) hfind)
    obtain rfl : r = q := Option.some.inj (hj.symm.trans hk)
    rfl

/-- What decodes is what some row builds from a word of that row (R110). -/
theorem exists_row_of_decode (h : decode xl w = some i) :
    ∃ r ∈ opcodeTable, r.isRowOf xl w = true ∧ r.build w = i := by
  obtain ⟨r, hfind, hbuild⟩ := Option.map_eq_some_iff.1 h
  exact ⟨r, List.mem_of_find?_eq_some hfind, List.find?_some (p := fun r : Row => r.isRowOf xl w) hfind, hbuild⟩

theorem decode_eq_none_of_rows (h : ∀ r ∈ opcodeTable, ¬r.isRowOf xl w = true) : decode xl w = none := by
  rw [Option.eq_none_iff_forall_ne_some]
  intro i hi
  obtain ⟨r, hr, hw, -⟩ := exists_row_of_decode hi
  exact h r hr hw

end Rows

/-! ### The words of a format, from their fields (R91 to R102) -/

section Formats

open BitVec (extractLsb'_append_extractLsb'_eq_extractLsb' extractLsb'_append_eq_of_le extractLsb'_append_eq_of_add_le
  extractLsb'_eq_self)

variable (w : Word)

theorem encR_fields :
    encR (w.extractLsb' 25 7) (fieldRs2 w) (fieldRs1 w) (fieldRm w) (fieldRd w) (w.extractLsb' 0 7) = w := by
  simp only [encR, fieldRs2, fieldRs1, fieldRm, fieldRd, extractLsb'_append_extractLsb'_eq_extractLsb',
    extractLsb'_eq_self]

theorem encI_fields : encI (immI w) (fieldRs1 w) (fieldRm w) (fieldRd w) (w.extractLsb' 0 7) = w := by
  simp only [encI, immI, fieldRs1, fieldRm, fieldRd, extractLsb'_append_extractLsb'_eq_extractLsb', extractLsb'_eq_self]

theorem encU_fields : encU (immU w) (fieldRd w) (w.extractLsb' 0 7) = w := by
  simp only [encU, immU, fieldRd, extractLsb'_append_extractLsb'_eq_extractLsb', extractLsb'_eq_self]

theorem encShift6_fields :
    encShift6 (w.extractLsb' 26 6) (shamt6 w) (fieldRs1 w) (fieldRm w) (fieldRd w) (w.extractLsb' 0 7) = w := by
  simp only [encShift6, shamt6, fieldRs1, fieldRm, fieldRd, extractLsb'_append_extractLsb'_eq_extractLsb',
    extractLsb'_eq_self]

theorem encR4_fields : encR4 (fieldRs3 w) (w.extractLsb' 25 2) (fieldRs2 w) (fieldRs1 w) (fieldRm w) (fieldRd w)
    (w.extractLsb' 0 7) = w := by
  simp only [encR4, fieldRs3, fieldRs2, fieldRs1, fieldRm, fieldRd, extractLsb'_append_extractLsb'_eq_extractLsb',
    extractLsb'_eq_self]

theorem encS_fields : encS (immS w) (fieldRs2 w) (fieldRs1 w) (fieldRm w) (w.extractLsb' 0 7) = w := by
  simp (disch := decide) only [encS, immS, fieldRs2, fieldRs1, fieldRm, extractLsb'_append_eq_of_le,
    extractLsb'_append_eq_of_add_le, Nat.sub_self, extractLsb'_append_extractLsb'_eq_extractLsb', extractLsb'_eq_self]

theorem encB_fields : encB (immB w) (fieldRs2 w) (fieldRs1 w) (fieldRm w) (w.extractLsb' 0 7) = w := by
  simp (disch := decide) only [encB, immB, fieldRs2, fieldRs1, fieldRm, extractLsb'_append_eq_of_le,
    extractLsb'_append_eq_of_add_le, Nat.reduceSub, extractLsb'_append_extractLsb'_eq_extractLsb', extractLsb'_eq_self]

theorem encJ_fields : encJ (immJ w) (fieldRd w) (w.extractLsb' 0 7) = w := by
  simp (disch := decide) only [encJ, immJ, fieldRd, extractLsb'_append_eq_of_le, extractLsb'_append_eq_of_add_le,
    Nat.reduceSub, extractLsb'_append_extractLsb'_eq_extractLsb', extractLsb'_eq_self]

theorem encAmo_fields (hop : w.extractLsb' 0 7 = 0b0101111) :
    encAmo (w.extractLsb' 27 5) (fieldAq w) (fieldRl w) (fieldRs2 w) (fieldRs1 w) (fieldRm w) (fieldRd w) = w := by
  have hbit : ∀ j, BitVec.ofBool (w.getLsbD j) = w.extractLsb' j 1 := fun j => by
    ext k hk
    simp [Nat.lt_one_iff.1 hk]
  simp only [encAmo, fieldAq, fieldRl, fieldRs2, fieldRs1, fieldRm, fieldRd, ← hop, hbit,
    extractLsb'_append_extractLsb'_eq_extractLsb', extractLsb'_eq_self]

theorem encFence_fields (hfm : w.extractLsb' 28 4 = 0) (hmid : w.extractLsb' 15 5 = 0) (hrd : w.extractLsb' 7 5 = 0)
    (hop : w.extractLsb' 0 7 = 0b0001111) : encFence (fieldPred w) (fieldSucc w) (fieldRm w) = w := by
  have hw : encFence (fieldPred w) (fieldSucc w) (fieldRm w) = w.extractLsb' 28 4 ++ fieldPred w ++ fieldSucc w ++
      w.extractLsb' 15 5 ++ fieldRm w ++ w.extractLsb' 7 5 ++ w.extractLsb' 0 7 := by rw [hfm, hmid, hrd, hop]; rfl
  rw [hw]
  simp only [fieldPred, fieldSucc, fieldRm, extractLsb'_append_extractLsb'_eq_extractLsb', extractLsb'_eq_self]

theorem immB_even : (immB w).getLsbD 0 = false := by
  rw [immB, BitVec.getLsbD_append]
  rfl

theorem immJ_even : (immJ w).getLsbD 0 = false := by
  rw [immJ, BitVec.getLsbD_append]
  rfl

end Formats

/-! ### Rows that fix every bit that is no operand's (R123) -/

section Faithful

/-- Instruction `i` exists where `a` says, has an even offset, and is encoded as `w`. -/
structure EncodedAs (i : Instr) (a : Admission) (w : Word) : Prop where
  admission : i.admission = a
  offsetEven : i.offsetEven = true
  encode : encode i = w

/-- What the row builds from any of its words is encoded as that word. -/
def Faithful (r : Row) : Prop := ∀ w, w &&& r.mask = r.value → EncodedAs (r.build w) r.xlens w

/-! One lemma per format and mask: a row with constructor `c` is faithful when every instruction of `c` is encoded by the
format with the fields that the row fixes, at any operands. That hypothesis is `encode`'s own equation for `c`, which the
default proof supplies; the rest is that the mask fixes the fields the format fixes. -/

variable {a : Admission} {v : Word}

/-- R format with funct7 and funct3 fixed; also the I-shift5 format, whose amount stands where rs2 does (R92, R98). -/
theorem Faithful.r {c : BitVec 5 → BitVec 5 → BitVec 5 → Instr}
    (h : ∀ rd rs1 rs2, EncodedAs (c rd rs1 rs2) a
      (encR (v.extractLsb' 25 7) rs2 rs1 (v.extractLsb' 12 3) rd (v.extractLsb' 0 7)) := by
      exact fun _ _ _ => ⟨rfl, rfl, rfl⟩) :
    Faithful ⟨a, 0xfe00707f, v, fun w => c (fieldRd w) (fieldRs1 w) (fieldRs2 w)⟩ := by
  intro w (hw : w &&& 0xfe00707f = v)
  have hword := h (fieldRd w) (fieldRs1 w) (fieldRs2 w)
  rwa [← extractLsb'_of_pattern hw, ← extractLsb'_of_pattern hw, ← extractLsb'_of_pattern hw, ← fieldRm,
    encR_fields] at hword

/-- R-rm format (R102). -/
theorem Faithful.rRm {c : BitVec 5 → BitVec 5 → BitVec 5 → Rm → Instr}
    (h : ∀ rd rs1 rs2 rm, EncodedAs (c rd rs1 rs2 rm) a
      (encR (v.extractLsb' 25 7) rs2 rs1 rm rd (v.extractLsb' 0 7)) := by exact fun _ _ _ _ => ⟨rfl, rfl, rfl⟩) :
    Faithful ⟨a, 0xfe00007f, v, fun w => c (fieldRd w) (fieldRs1 w) (fieldRs2 w) (fieldRm w)⟩ := by
  intro w (hw : w &&& 0xfe00007f = v)
  have hword := h (fieldRd w) (fieldRs1 w) (fieldRs2 w) (fieldRm w)
  rwa [← extractLsb'_of_pattern hw, ← extractLsb'_of_pattern hw, encR_fields] at hword

/-- R format with the rs2 field fixed too (R92). -/
theorem Faithful.rSel {c : BitVec 5 → BitVec 5 → Instr}
    (h : ∀ rd rs1, EncodedAs (c rd rs1) a
      (encR (v.extractLsb' 25 7) (v.extractLsb' 20 5) rs1 (v.extractLsb' 12 3) rd (v.extractLsb' 0 7)) := by
      exact fun _ _ => ⟨rfl, rfl, rfl⟩) :
    Faithful ⟨a, 0xfff0707f, v, fun w => c (fieldRd w) (fieldRs1 w)⟩ := by
  intro w (hw : w &&& 0xfff0707f = v)
  have hword := h (fieldRd w) (fieldRs1 w)
  rwa [← extractLsb'_of_pattern hw, ← extractLsb'_of_pattern hw, ← extractLsb'_of_pattern hw,
    ← extractLsb'_of_pattern hw, ← fieldRm, ← fieldRs2, encR_fields] at hword

/-- R-rm format with the rs2 field fixed too (R102). -/
theorem Faithful.rSelRm {c : BitVec 5 → BitVec 5 → Rm → Instr}
    (h : ∀ rd rs1 rm, EncodedAs (c rd rs1 rm) a
      (encR (v.extractLsb' 25 7) (v.extractLsb' 20 5) rs1 rm rd (v.extractLsb' 0 7)) := by
      exact fun _ _ _ => ⟨rfl, rfl, rfl⟩) :
    Faithful ⟨a, 0xfff0007f, v, fun w => c (fieldRd w) (fieldRs1 w) (fieldRm w)⟩ := by
  intro w (hw : w &&& 0xfff0007f = v)
  have hword := h (fieldRd w) (fieldRs1 w) (fieldRm w)
  rwa [← extractLsb'_of_pattern hw, ← extractLsb'_of_pattern hw, ← extractLsb'_of_pattern hw, ← fieldRs2,
    encR_fields] at hword

/-- I format (R93). -/
theorem Faithful.i {c : BitVec 5 → BitVec 5 → BitVec 12 → Instr}
    (h : ∀ rd rs1 imm, EncodedAs (c rd rs1 imm) a
      (encI imm rs1 (v.extractLsb' 12 3) rd (v.extractLsb' 0 7)) := by exact fun _ _ _ => ⟨rfl, rfl, rfl⟩) :
    Faithful ⟨a, 0x0000707f, v, fun w => c (fieldRd w) (fieldRs1 w) (immI w)⟩ := by
  intro w (hw : w &&& 0x0000707f = v)
  have hword := h (fieldRd w) (fieldRs1 w) (immI w)
  rwa [← extractLsb'_of_pattern hw, ← extractLsb'_of_pattern hw, ← fieldRm, encI_fields] at hword

/-- S format (R94). -/
theorem Faithful.s {c : BitVec 5 → BitVec 5 → BitVec 12 → Instr}
    (h : ∀ rs2 rs1 imm, EncodedAs (c rs2 rs1 imm) a
      (encS imm rs2 rs1 (v.extractLsb' 12 3) (v.extractLsb' 0 7)) := by exact fun _ _ _ => ⟨rfl, rfl, rfl⟩) :
    Faithful ⟨a, 0x0000707f, v, fun w => c (fieldRs2 w) (fieldRs1 w) (immS w)⟩ := by
  intro w (hw : w &&& 0x0000707f = v)
  have hword := h (fieldRs2 w) (fieldRs1 w) (immS w)
  rwa [← extractLsb'_of_pattern hw, ← extractLsb'_of_pattern hw, ← fieldRm, encS_fields] at hword

/-- B format: the offset read from a word is even (R95, R105). -/
theorem Faithful.b {c : BitVec 5 → BitVec 5 → BitVec 13 → Instr}
    (h : ∀ rs1 rs2 off, off.getLsbD 0 = false → EncodedAs (c rs1 rs2 off) a
      (encB off rs2 rs1 (v.extractLsb' 12 3) (v.extractLsb' 0 7)) := by
      exact fun _ _ _ heven => ⟨rfl, congrArg not heven, rfl⟩) :
    Faithful ⟨a, 0x0000707f, v, fun w => c (fieldRs1 w) (fieldRs2 w) (immB w)⟩ := by
  intro w (hw : w &&& 0x0000707f = v)
  have hword := h (fieldRs1 w) (fieldRs2 w) (immB w) (immB_even w)
  rwa [← extractLsb'_of_pattern hw, ← extractLsb'_of_pattern hw, ← fieldRm, encB_fields] at hword

/-- U format (R96). -/
theorem Faithful.u {c : BitVec 5 → BitVec 20 → Instr}
    (h : ∀ rd imm, EncodedAs (c rd imm) a (encU imm rd (v.extractLsb' 0 7)) := by exact fun _ _ => ⟨rfl, rfl, rfl⟩) :
    Faithful ⟨a, 0x0000007f, v, fun w => c (fieldRd w) (immU w)⟩ := by
  intro w (hw : w &&& 0x0000007f = v)
  have hword := h (fieldRd w) (immU w)
  rwa [← extractLsb'_of_pattern hw, encU_fields] at hword

/-- J format: the offset read from a word is even (R97, R107). -/
theorem Faithful.j {c : BitVec 5 → BitVec 21 → Instr}
    (h : ∀ rd off, off.getLsbD 0 = false → EncodedAs (c rd off) a (encJ off rd (v.extractLsb' 0 7)) := by
      exact fun _ _ heven => ⟨rfl, congrArg not heven, rfl⟩) :
    Faithful ⟨a, 0x0000007f, v, fun w => c (fieldRd w) (immJ w)⟩ := by
  intro w (hw : w &&& 0x0000007f = v)
  have hword := h (fieldRd w) (immJ w) (immJ_even w)
  rwa [← extractLsb'_of_pattern hw, encJ_fields] at hword

/-- I-shift6 format (R98). -/
theorem Faithful.shift6 {c : BitVec 5 → BitVec 5 → BitVec 6 → Instr}
    (h : ∀ rd rs1 shamt, EncodedAs (c rd rs1 shamt) a
      (encShift6 (v.extractLsb' 26 6) shamt rs1 (v.extractLsb' 12 3) rd (v.extractLsb' 0 7)) := by
      exact fun _ _ _ => ⟨rfl, rfl, rfl⟩) :
    Faithful ⟨a, 0xfc00707f, v, fun w => c (fieldRd w) (fieldRs1 w) (shamt6 w)⟩ := by
  intro w (hw : w &&& 0xfc00707f = v)
  have hword := h (fieldRd w) (fieldRs1 w) (shamt6 w)
  rwa [← extractLsb'_of_pattern hw, ← extractLsb'_of_pattern hw, ← extractLsb'_of_pattern hw, ← fieldRm,
    encShift6_fields] at hword

/-- R4 format (R99). -/
theorem Faithful.r4 {c : BitVec 5 → BitVec 5 → BitVec 5 → BitVec 5 → Rm → Instr}
    (h : ∀ rd rs1 rs2 rs3 rm, EncodedAs (c rd rs1 rs2 rs3 rm) a
      (encR4 rs3 (v.extractLsb' 25 2) rs2 rs1 rm rd (v.extractLsb' 0 7)) := by
      exact fun _ _ _ _ _ => ⟨rfl, rfl, rfl⟩) :
    Faithful ⟨a, 0x0600007f, v, fun w => c (fieldRd w) (fieldRs1 w) (fieldRs2 w) (fieldRs3 w) (fieldRm w)⟩ := by
  intro w (hw : w &&& 0x0600007f = v)
  have hword := h (fieldRd w) (fieldRs1 w) (fieldRs2 w) (fieldRs3 w) (fieldRm w)
  rwa [← extractLsb'_of_pattern hw, ← extractLsb'_of_pattern hw, encR4_fields] at hword

/-- AMO format (R100). -/
theorem Faithful.amo {c : BitVec 5 → BitVec 5 → BitVec 5 → Bool → Bool → Instr}
    (h : ∀ rd rs2 rs1 aq rl, EncodedAs (c rd rs2 rs1 aq rl) a
      (encAmo (v.extractLsb' 27 5) aq rl rs2 rs1 (v.extractLsb' 12 3) rd) := by
      exact fun _ _ _ _ _ => ⟨rfl, rfl, rfl⟩)
    (hop : v.extractLsb' 0 7 = 0b0101111 := by rfl) :
    Faithful ⟨a, 0xf800707f, v, fun w => c (fieldRd w) (fieldRs2 w) (fieldRs1 w) (fieldAq w) (fieldRl w)⟩ := by
  intro w (hw : w &&& 0xf800707f = v)
  have hword := h (fieldRd w) (fieldRs2 w) (fieldRs1 w) (fieldAq w) (fieldRl w)
  rwa [← extractLsb'_of_pattern hw, ← extractLsb'_of_pattern hw, ← fieldRm,
    encAmo_fields w ((extractLsb'_of_pattern hw).trans hop)] at hword

/-- AMO format with the rs2 field fixed, as LR has it (R100, R229). -/
theorem Faithful.lr {c : BitVec 5 → BitVec 5 → Bool → Bool → Instr}
    (h : ∀ rd rs1 aq rl, EncodedAs (c rd rs1 aq rl) a
      (encAmo (v.extractLsb' 27 5) aq rl (v.extractLsb' 20 5) rs1 (v.extractLsb' 12 3) rd) := by
      exact fun _ _ _ _ => ⟨rfl, rfl, rfl⟩)
    (hop : v.extractLsb' 0 7 = 0b0101111 := by rfl) :
    Faithful ⟨a, 0xf9f0707f, v, fun w => c (fieldRd w) (fieldRs1 w) (fieldAq w) (fieldRl w)⟩ := by
  intro w (hw : w &&& 0xf9f0707f = v)
  have hword := h (fieldRd w) (fieldRs1 w) (fieldAq w) (fieldRl w)
  rwa [← extractLsb'_of_pattern hw, ← extractLsb'_of_pattern hw, ← extractLsb'_of_pattern hw, ← fieldRm,
    ← fieldRs2, encAmo_fields w ((extractLsb'_of_pattern hw).trans hop)] at hword

/-- FENCE format: the fields other than pred and succ are those of FENCE (R101, R168). -/
theorem Faithful.fence : Faithful ⟨.both, 0xf00fffff, 0x0000000f, fun w => .fence (fieldPred w) (fieldSucc w)⟩ := by
  intro w (hw : w &&& 0xf00fffff = 0x0000000f)
  have hrm : fieldRm w = 0 := extractLsb'_of_pattern hw
  have hword := encFence_fields w (extractLsb'_of_pattern hw) (extractLsb'_of_pattern hw)
    (extractLsb'_of_pattern hw) (extractLsb'_of_pattern hw)
  exact ⟨rfl, rfl, (congrArg _ hrm).symm.trans hword⟩

/-- FENCE.I is one word (R169). -/
theorem Faithful.fenceI : Faithful ⟨.both, 0xffffffff, 0x0000100f, fun _ => .fenceI⟩ :=
  fun w hw => ⟨rfl, rfl, hw.symm.trans (BitVec.and_allOnes (x := w))⟩

theorem rowsRv32i_faithful : ∀ r ∈ rowsRv32i, Faithful r := by
  simp only [rowsRv32i, List.forall_mem_cons]
  exact ⟨.u, .u, .j, .i, .b, .b, .b, .b, .b, .b, .i, .i, .i, .i, .i, .s, .s, .s, .i, .i, .i, .i, .i, .i, .r, .r, .r,
    .r, .r, .r, .r, .r, .r, .r, .r, .r, .r, .fence, .fenceI, nofun⟩

theorem rowsRv64i_faithful : ∀ r ∈ rowsRv64i, Faithful r := by
  simp only [rowsRv64i, List.forall_mem_cons]
  exact ⟨.i, .i, .s, .shift6, .shift6, .shift6, .i, .r, .r, .r, .r, .r, .r, .r, .r, nofun⟩

theorem rowsRv32m_faithful : ∀ r ∈ rowsRv32m, Faithful r := by
  simp only [rowsRv32m, List.forall_mem_cons]
  exact ⟨.r, .r, .r, .r, .r, .r, .r, .r, nofun⟩

theorem rowsRv64m_faithful : ∀ r ∈ rowsRv64m, Faithful r := by
  simp only [rowsRv64m, List.forall_mem_cons]
  exact ⟨.r, .r, .r, .r, .r, nofun⟩

theorem rowsRv32a_faithful : ∀ r ∈ rowsRv32a, Faithful r := by
  simp only [rowsRv32a, List.forall_mem_cons]
  exact ⟨.lr, .amo, .amo, .amo, .amo, .amo, .amo, .amo, .amo, .amo, .amo, nofun⟩

theorem rowsRv64a_faithful : ∀ r ∈ rowsRv64a, Faithful r := by
  simp only [rowsRv64a, List.forall_mem_cons]
  exact ⟨.lr, .amo, .amo, .amo, .amo, .amo, .amo, .amo, .amo, .amo, .amo, nofun⟩

theorem rowsRv32f_faithful : ∀ r ∈ rowsRv32f, Faithful r := by
  simp only [rowsRv32f, List.forall_mem_cons]
  exact ⟨.i, .s, .r4, .r4, .r4, .r4, .rRm, .rRm, .rRm, .rRm, .r, .r, .r, .r, .r, .rSelRm, .r, .r, .r, .rSelRm, .rSelRm,
    .rSelRm, .rSelRm, .rSel, .rSel, .rSel, nofun⟩

theorem rowsRv64f_faithful : ∀ r ∈ rowsRv64f, Faithful r := by
  simp only [rowsRv64f, List.forall_mem_cons]
  exact ⟨.rSelRm, .rSelRm, .rSelRm, .rSelRm, nofun⟩

theorem rowsRv32d_faithful : ∀ r ∈ rowsRv32d, Faithful r := by
  simp only [rowsRv32d, List.forall_mem_cons]
  exact ⟨.i, .s, .r4, .r4, .r4, .r4, .rRm, .rRm, .rRm, .rRm, .r, .r, .r, .r, .r, .rSelRm, .r, .r, .r, .rSelRm, .rSelRm,
    .rSelRm, .rSelRm, .rSel, nofun⟩

theorem rowsRv64d_faithful : ∀ r ∈ rowsRv64d, Faithful r := by
  simp only [rowsRv64d, List.forall_mem_cons]
  exact ⟨.rSelRm, .rSelRm, .rSelRm, .rSelRm, .rSel, .rSel, nofun⟩

theorem opcodeTable_faithful : ∀ r ∈ opcodeTable, Faithful r := by
  simp only [opcodeTable, List.forall_mem_append]
  exact ⟨⟨⟨⟨⟨⟨⟨⟨⟨rowsRv32i_faithful, rowsRv64i_faithful⟩, rowsRv32m_faithful⟩, rowsRv64m_faithful⟩,
    rowsRv32a_faithful⟩, rowsRv64a_faithful⟩, rowsRv32f_faithful⟩, rowsRv64f_faithful⟩, rowsRv32d_faithful⟩,
    rowsRv64d_faithful⟩

end Faithful

/-! ### The round trips -/

/-- Settles O3: every row of the table is faithful, so the instruction it builds from a word is encoded as the word. -/
theorem encodeOfDecodeIsTheWord : Obligations.EncodeOfDecodeIsTheWord := by
  intro xl w i h
  obtain ⟨r, hr, hw, rfl⟩ := exists_row_of_decode h
  obtain ⟨hxl, hbits⟩ := isRowOf_iff.1 hw
  obtain ⟨hadm, heven, henc⟩ := opcodeTable_faithful r hr w hbits
  exact ⟨by simp [Instr.wf, hadm, hxl, heven], henc⟩

section EncodeMatches

open EncodeMatches

/-- The word of every instruction is a word of the instruction's own row, which reads its operands back (R110). -/
theorem encodeMatches : ∀ i : Instr, EncodeMatches.Statement i
  | .lui _ _ => lui _ _ | .auipc _ _ => auipc _ _ | .jal _ _ => jal _ _ | .jalr _ _ _ => jalr _ _ _
  | .beq _ _ _ => beq _ _ _ | .bne _ _ _ => bne _ _ _ | .blt _ _ _ => blt _ _ _ | .bge _ _ _ => bge _ _ _
  | .bltu _ _ _ => bltu _ _ _ | .bgeu _ _ _ => bgeu _ _ _ | .lb _ _ _ => lb _ _ _ | .lh _ _ _ => lh _ _ _
  | .lw _ _ _ => lw _ _ _ | .lbu _ _ _ => lbu _ _ _ | .lhu _ _ _ => lhu _ _ _ | .sb _ _ _ => sb _ _ _
  | .sh _ _ _ => sh _ _ _ | .sw _ _ _ => sw _ _ _ | .addi _ _ _ => addi _ _ _ | .slti _ _ _ => slti _ _ _
  | .sltiu _ _ _ => sltiu _ _ _ | .xori _ _ _ => xori _ _ _ | .ori _ _ _ => ori _ _ _ | .andi _ _ _ => andi _ _ _
  | .slli32 _ _ _ => slli32 _ _ _ | .srli32 _ _ _ => srli32 _ _ _ | .srai32 _ _ _ => srai32 _ _ _
  | .add _ _ _ => add _ _ _ | .sub _ _ _ => sub _ _ _ | .sll _ _ _ => sll _ _ _ | .slt _ _ _ => slt _ _ _
  | .sltu _ _ _ => sltu _ _ _ | .xor _ _ _ => xor _ _ _ | .srl _ _ _ => srl _ _ _ | .sra _ _ _ => sra _ _ _
  | .or _ _ _ => or _ _ _ | .and _ _ _ => and _ _ _ | .fence _ _ => fence _ _ | .fenceI => fenceI
  | .lwu _ _ _ => lwu _ _ _
  | .ld _ _ _ => ld _ _ _ | .sd _ _ _ => sd _ _ _ | .slli64 _ _ _ => slli64 _ _ _ | .srli64 _ _ _ => srli64 _ _ _
  | .srai64 _ _ _ => srai64 _ _ _ | .addiw _ _ _ => addiw _ _ _ | .slliw _ _ _ => slliw _ _ _
  | .srliw _ _ _ => srliw _ _ _ | .sraiw _ _ _ => sraiw _ _ _ | .addw _ _ _ => addw _ _ _ | .subw _ _ _ => subw _ _ _
  | .sllw _ _ _ => sllw _ _ _ | .srlw _ _ _ => srlw _ _ _ | .sraw _ _ _ => sraw _ _ _ | .mul _ _ _ => mul _ _ _
  | .mulh _ _ _ => mulh _ _ _ | .mulhsu _ _ _ => mulhsu _ _ _ | .mulhu _ _ _ => mulhu _ _ _ | .div _ _ _ => div _ _ _
  | .divu _ _ _ => divu _ _ _ | .rem _ _ _ => rem _ _ _ | .remu _ _ _ => remu _ _ _ | .mulw _ _ _ => mulw _ _ _
  | .divw _ _ _ => divw _ _ _ | .divuw _ _ _ => divuw _ _ _ | .remw _ _ _ => remw _ _ _ | .remuw _ _ _ => remuw _ _ _
  | .lrW _ _ _ _ => lrW _ _ _ _ | .scW _ _ _ _ _ => scW _ _ _ _ _ | .amoswapW _ _ _ _ _ => amoswapW _ _ _ _ _
  | .amoaddW _ _ _ _ _ => amoaddW _ _ _ _ _ | .amoxorW _ _ _ _ _ => amoxorW _ _ _ _ _
  | .amoorW _ _ _ _ _ => amoorW _ _ _ _ _ | .amoandW _ _ _ _ _ => amoandW _ _ _ _ _
  | .amominW _ _ _ _ _ => amominW _ _ _ _ _ | .amomaxW _ _ _ _ _ => amomaxW _ _ _ _ _
  | .amominuW _ _ _ _ _ => amominuW _ _ _ _ _ | .amomaxuW _ _ _ _ _ => amomaxuW _ _ _ _ _
  | .lrD _ _ _ _ => lrD _ _ _ _ | .scD _ _ _ _ _ => scD _ _ _ _ _ | .amoswapD _ _ _ _ _ => amoswapD _ _ _ _ _
  | .amoaddD _ _ _ _ _ => amoaddD _ _ _ _ _ | .amoxorD _ _ _ _ _ => amoxorD _ _ _ _ _
  | .amoorD _ _ _ _ _ => amoorD _ _ _ _ _ | .amoandD _ _ _ _ _ => amoandD _ _ _ _ _
  | .amominD _ _ _ _ _ => amominD _ _ _ _ _ | .amomaxD _ _ _ _ _ => amomaxD _ _ _ _ _
  | .amominuD _ _ _ _ _ => amominuD _ _ _ _ _ | .amomaxuD _ _ _ _ _ => amomaxuD _ _ _ _ _ | .flw _ _ _ => flw _ _ _
  | .fsw _ _ _ => fsw _ _ _ | .fmaddS _ _ _ _ _ => fmaddS _ _ _ _ _ | .fmsubS _ _ _ _ _ => fmsubS _ _ _ _ _
  | .fnmsubS _ _ _ _ _ => fnmsubS _ _ _ _ _ | .fnmaddS _ _ _ _ _ => fnmaddS _ _ _ _ _
  | .faddS _ _ _ _ => faddS _ _ _ _ | .fsubS _ _ _ _ => fsubS _ _ _ _ | .fmulS _ _ _ _ => fmulS _ _ _ _
  | .fdivS _ _ _ _ => fdivS _ _ _ _ | .fsgnjS _ _ _ => fsgnjS _ _ _ | .fsgnjnS _ _ _ => fsgnjnS _ _ _
  | .fsgnjxS _ _ _ => fsgnjxS _ _ _ | .fminS _ _ _ => fminS _ _ _ | .fmaxS _ _ _ => fmaxS _ _ _
  | .fsqrtS _ _ _ => fsqrtS _ _ _ | .fleS _ _ _ => fleS _ _ _ | .fltS _ _ _ => fltS _ _ _ | .feqS _ _ _ => feqS _ _ _
  | .fcvtWS _ _ _ => fcvtWS _ _ _ | .fcvtWuS _ _ _ => fcvtWuS _ _ _ | .fcvtSW _ _ _ => fcvtSW _ _ _
  | .fcvtSWu _ _ _ => fcvtSWu _ _ _ | .fmvXS _ _ => fmvXS _ _ | .fclassS _ _ => fclassS _ _ | .fmvSX _ _ => fmvSX _ _
  | .fcvtLS _ _ _ => fcvtLS _ _ _ | .fcvtLuS _ _ _ => fcvtLuS _ _ _ | .fcvtSL _ _ _ => fcvtSL _ _ _
  | .fcvtSLu _ _ _ => fcvtSLu _ _ _ | .fld _ _ _ => fld _ _ _ | .fsd _ _ _ => fsd _ _ _
  | .fmaddD _ _ _ _ _ => fmaddD _ _ _ _ _ | .fmsubD _ _ _ _ _ => fmsubD _ _ _ _ _
  | .fnmsubD _ _ _ _ _ => fnmsubD _ _ _ _ _ | .fnmaddD _ _ _ _ _ => fnmaddD _ _ _ _ _
  | .faddD _ _ _ _ => faddD _ _ _ _ | .fsubD _ _ _ _ => fsubD _ _ _ _ | .fmulD _ _ _ _ => fmulD _ _ _ _
  | .fdivD _ _ _ _ => fdivD _ _ _ _ | .fsgnjD _ _ _ => fsgnjD _ _ _ | .fsgnjnD _ _ _ => fsgnjnD _ _ _
  | .fsgnjxD _ _ _ => fsgnjxD _ _ _ | .fminD _ _ _ => fminD _ _ _ | .fmaxD _ _ _ => fmaxD _ _ _
  | .fsqrtD _ _ _ => fsqrtD _ _ _ | .fleD _ _ _ => fleD _ _ _ | .fltD _ _ _ => fltD _ _ _ | .feqD _ _ _ => feqD _ _ _
  | .fcvtWD _ _ _ => fcvtWD _ _ _ | .fcvtWuD _ _ _ => fcvtWuD _ _ _ | .fcvtDW _ _ _ => fcvtDW _ _ _
  | .fcvtDWu _ _ _ => fcvtDWu _ _ _ | .fclassD _ _ => fclassD _ _ | .fcvtLD _ _ _ => fcvtLD _ _ _
  | .fcvtLuD _ _ _ => fcvtLuD _ _ _ | .fcvtDL _ _ _ => fcvtDL _ _ _ | .fcvtDLu _ _ _ => fcvtDLu _ _ _
  | .fmvXD _ _ => fmvXD _ _ | .fmvDX _ _ => fmvDX _ _

end EncodeMatches

/-- Decoding undoes encoding: the decoder finds no other row than the instruction's own. -/
theorem decode_encode {xl : XLen} {i : Instr} (h : i.wf xl = true) : decode xl (encode i) = some i := by
  obtain ⟨hadm, heven⟩ := Bool.and_eq_true_iff.1 h
  obtain ⟨r, hr, hxl, hw, hbuild⟩ := encodeMatches i heven
  rw [decode_of_isRowOf hr (isRowOf_iff.2 ⟨hxl ▸ hadm, hw⟩), hbuild]

theorem decode_of_encode_eq {xl : XLen} {w : Word} {i : Instr} (h : encode i = w) (hwf : i.wf xl = true) :
    decode xl w = some i :=
  h ▸ decode_encode hwf

/-- Settles O2: the word of an instruction is one of its own row, and no other row can be found. -/
theorem decodeOfEncodeIsTheInstruction : Obligations.DecodeOfEncodeIsTheInstruction := fun _ _ => decode_encode

end Sys2Proof.Proofs

/-!
# What the encoding decides (R103 to R113, R120)

First the words of no row and what they raise, then what XLEN changes, then the values of the immediates, the rounding
modes and the two instructions of li, each with its statement.
-/
namespace Sys2Proof.Proofs

open Sys2Proof.Machine Sys2Proof.Laws

/-! ### Words of no row (R111) -/

section Illegal

variable {xl : XLen} {w : Word} {lo len : Nat} {vs : List (BitVec len)} {r : Row}

/-- The opcodes of the table (R123). -/
def opcodes : List (BitVec 7) :=
  [0x03, 0x07, 0x0f, 0x13, 0x17, 0x1b, 0x23, 0x27, 0x2f, 0x33, 0x37, 0x3b, 0x43, 0x47, 0x4b, 0x4f, 0x53, 0x63, 0x67,
    0x6f]

/-- The row fixes a whole field, to one of the values `vs`. -/
abbrev FixesField (lo len : Nat) (vs : List (BitVec len)) (r : Row) : Prop :=
  r.mask.extractLsb' lo len = BitVec.allOnes len ∧ r.value.extractLsb' lo len ∈ vs

/-- Every row with one of the opcodes `ops` fixes the field, to one of the values `vs`. -/
abbrev OpcodesFix (ops : List (BitVec 7)) (lo len : Nat) (vs : List (BitVec len)) : Prop :=
  ∀ r ∈ opcodeTable, r.value.extractLsb' 0 7 ∈ ops → FixesField lo len vs r

theorem field_eq_of_isRowOf (h : FixesField lo len vs r) (hw : r.isRowOf xl w = true) :
    w.extractLsb' lo len = r.value.extractLsb' lo len :=
  extractLsb'_of_pattern (isRowOf_iff.1 hw).2 h.1

theorem opcodeTable_opcodes : ∀ r ∈ opcodeTable, FixesField 0 7 opcodes r := by decide +kernel

theorem opcode_of_isRowOf (hr : r ∈ opcodeTable) (hw : r.isRowOf xl w = true) :
    w.extractLsb' 0 7 = r.value.extractLsb' 0 7 :=
  field_eq_of_isRowOf (opcodeTable_opcodes r hr) hw

theorem decode_eq_none_of_opcode (h : w.extractLsb' 0 7 ∉ opcodes) : decode xl w = none :=
  decode_eq_none_of_rows fun r hr hw => h (opcode_of_isRowOf hr hw ▸ (opcodeTable_opcodes r hr).2)

theorem decode_eq_none_of_field {ops : List (BitVec 7)} (htable : OpcodesFix ops lo len vs)
    (hop : w.extractLsb' 0 7 ∈ ops) (hfield : w.extractLsb' lo len ∉ vs) : decode xl w = none :=
  decode_eq_none_of_rows fun r hr hw =>
    have hfix := htable r hr (opcode_of_isRowOf hr hw ▸ hop)
    hfield (field_eq_of_isRowOf hfix hw ▸ hfix.2)

/-- A word is no row's when its pattern contradicts every row of the width. -/
theorem decode_eq_none_of_pattern {m v : Word} (h : w &&& m = v)
    (hrows : ∀ r ∈ opcodeTable, r.xlens.admits xl = true → v &&& r.mask ≠ r.value &&& m) : decode xl w = none :=
  decode_eq_none_of_rows fun r hr hw =>
    have ⟨hxl, hbits⟩ := isRowOf_iff.1 hw
    hrows r hr hxl (patterns_agree h hbits)

/-- The two low bits of every opcode are set. -/
theorem decode_eq_none_of_lowBits (h : w.extractLsb' 0 2 ≠ 3) : decode xl w = none := by
  refine decode_eq_none_of_opcode fun hop => h ?_
  have hlow : w.extractLsb' 0 2 = (w.extractLsb' 0 7).extractLsb' 0 2 := by
    ext j hj
    simp
  have hopcodes : ∀ o ∈ opcodes, o.extractLsb' 0 2 = 3 := by decide
  exact hlow.trans (hopcodes _ hop)

/-- OP rows have one of three values of funct7 (R111). -/
theorem funct7_of_op : OpcodesFix [0x33] 25 7 [0x00, 0x20, 0x01] := by decide +kernel

/-- The six branches (R135 to R140). -/
theorem funct3_of_branch : OpcodesFix [0x63] 12 3 [0, 1, 4, 5, 6, 7] := by decide +kernel

/-- The loads of both widths (R141 to R145, R181, R182). -/
theorem funct3_of_load : OpcodesFix [0x03] 12 3 [0, 1, 2, 3, 4, 5, 6] := by decide +kernel

/-- Floating-point rows have the format S or D (R99, R102). -/
theorem fmt_of_float : OpcodesFix [0x43, 0x47, 0x4b, 0x4f, 0x53] 25 2 [0, 1] := by decide +kernel

/-- Atomics have the width W or D (R100). -/
theorem funct3_of_amo : OpcodesFix [0x2f] 12 3 [2, 3] := by decide +kernel

theorem funct5_fixed_of_amo :
    ∀ r ∈ opcodeTable, r.value.extractLsb' 0 7 = 0x2f → r.mask.extractLsb' 27 5 = BitVec.allOnes 5 := by decide +kernel

/-- The rs2 field of LR is zero (R229, R251). -/
theorem rs2_of_lr : ∀ r ∈ opcodeTable, r.value.extractLsb' 0 7 = 0x2f → r.value.extractLsb' 27 5 = 2 →
    FixesField 20 5 [0] r := by decide +kernel

theorem decode_eq_none_of_lr (hop : w.extractLsb' 0 7 = 0x2f) (hlr : w.extractLsb' 27 5 = 2)
    (hrs2 : w.extractLsb' 20 5 ≠ 0) : decode xl w = none := by
  refine decode_eq_none_of_rows fun r hr hw => hrs2 ?_
  have hrop := (opcode_of_isRowOf hr hw).symm.trans hop
  have hrlr := (extractLsb'_of_pattern (isRowOf_iff.1 hw).2 (funct5_fixed_of_amo r hr hrop)).symm.trans hlr
  have hfix := rs2_of_lr r hr hrop hrlr
  exact (field_eq_of_isRowOf hfix hw).trans (List.mem_singleton.1 hfix.2)

end Illegal

/-- Four bytes whose word is no row's raise IllegalInstruction with that word (R111). -/
theorem runBytes_of_decode_eq_none {s : State} {b0 b1 b2 b3 : Byte}
    (h : decode s.cfg.xlen (wordOfBytes b0 b1 b2 b3) = none) :
    runBytes s [b0, b1, b2, b3] = raise s .illegalInstruction (wordOfBytes b0 b1 b2 b3) := by
  simp only [runBytes, decodeBytes, h]

/-- Settles O7: past the checks the step runs the fetched bytes, which raise; and each kind of word in R111 has a field
with a value that no row of its opcode gives it. -/
theorem illegalWordsTrap : Obligations.IllegalWordsTrap := by
  refine ⟨fun s b0 b1 b2 b3 hrun hpc hhalt hmap hfetch hnone => ?trap, fun xl w => ⟨decode_eq_none_of_lowBits,
    decode_eq_none_of_opcode, fun hop => decode_eq_none_of_field funct7_of_op (List.mem_singleton.2 hop),
    fun hop hf => ?branch, fun hop hf => ?load, fun hop hf => ?float,
    fun hop => decode_eq_none_of_field funct3_of_amo (List.mem_singleton.2 hop), decode_eq_none_of_lr, ?constants⟩⟩
  case trap =>
    rw [step_eq_runBytes hrun hpc hhalt hmap, hfetch]
    exact runBytes_of_decode_eq_none hnone
  case branch =>
    have hunused : ∀ f ∈ ([2, 3] : List (BitVec 3)), f ∉ ([0, 1, 4, 5, 6, 7] : List (BitVec 3)) := by decide
    exact decode_eq_none_of_field funct3_of_branch (List.mem_singleton.2 hop) (hunused _ hf)
  case load =>
    have hunused : (7 : BitVec 3) ∉ ([0, 1, 2, 3, 4, 5, 6] : List (BitVec 3)) := by decide
    exact decode_eq_none_of_field funct3_of_load (List.mem_singleton.2 hop) (hf ▸ hunused)
  case float =>
    have hunused : ∀ f ∈ ([2, 3] : List (BitVec 2)), f ∉ ([0, 1] : List (BitVec 2)) := by decide
    exact decode_eq_none_of_field fmt_of_float hop (hunused _ hf)
  case constants => rintro (rfl | rfl) <;> exact decode_eq_none_of_opcode (by decide)

/-! ### What XLEN changes (R113) -/

/-- No step changes the parameters of the run (R33). -/
theorem step_cfg {s t : State} (h : step s = .next t) : t.cfg = s.cfg := by
  obtain ⟨-, rfl | ⟨draws, ⟨i, hexec⟩ | ⟨e, v, rfl⟩⟩⟩ := step_cases h
  · rfl
  · obtain ⟨u, hu, pc, status, rfl⟩ := (exec_outcome hexec).exists_updates
    exact hu.keeps.1
  · rfl

/-- Settles O6: legal words are those of well-formed instructions, and the pattern of a word with inst[25] = 1
contradicts every row of its width. -/
theorem xlenDecidesTheDecoding : Obligations.XlenDecidesTheDecoding := by
  refine ⟨fun w i h h64 => ?_, fun rd rs1 shamt => ?_, fun rd rs1 shamt => ?_,
    fun s t h => congrArg Config.xlen (step_cfg h)⟩
  · have hwf := (encodeOfDecodeIsTheWord .rv32 w i h).1
    simp [Instr.wf, h64, Admission.admits] at hwf
  · refine ⟨decode_of_encode_eq rfl rfl, decode_of_encode_eq rfl rfl, decode_of_encode_eq rfl rfl, ?_, ?_, ?_,
      decode_of_encode_eq rfl rfl, decode_of_encode_eq rfl rfl, decode_of_encode_eq rfl rfl, ?_, ?_, ?_⟩
    all_goals exact decode_eq_none_of_pattern (encShift5_mask _ _ _ _ _ _) (by decide +kernel)
  · exact ⟨decode_of_encode_eq rfl rfl, decode_of_encode_eq rfl rfl, decode_of_encode_eq rfl rfl⟩

/-- Settles O1: fifteen of the words are encodings, and the opcodes of the other three are no row's. -/
theorem specWordsDecode : Obligations.SpecWordsDecode := by
  refine ⟨?_, ?_, ?_, ?_, ?_, ?_, ?_, ?_, ?_, ?_, ?_, ?_, ?_, ?_, ?_, decode_eq_none_of_opcode (by decide),
    decode_eq_none_of_opcode (by decide), decode_eq_none_of_opcode (by decide)⟩
  all_goals exact decode_of_encode_eq (by decide) rfl

/-! ### The values of the immediates (R103 to R107) -/

section Immediates

/-- A one-bit pattern as a signed number: a sign weighs minus one. -/
theorem toInt_sign (x : BitVec 1) : x.toInt = -(x.toNat : Int) := by
  have hx := x.isLt
  rw [BitVec.toInt_eq_toNat_cond]
  split <;> omega

theorem toNat_field (w : Word) (lo len : Nat) : (w.extractLsb' lo len).toNat = w.toNat / 2 ^ lo % 2 ^ len := by
  rw [BitVec.extractLsb'_toNat, Nat.shiftRight_eq_div_pow]

/-- Appended below a signed field, a field is a digit of lower weight. -/
theorem toInt_append_pos {n m : Nat} (x : BitVec (n + 1)) (y : BitVec m) :
    (x ++ y).toInt = 2 ^ m * x.toInt + y.toNat := by
  rw [BitVec.toInt_append, if_neg (by simp)]

theorem toInt_append_zero {n : Nat} (x : BitVec (n + 1)) (m : Nat) : (x ++ (0 : BitVec m)).toInt = 2 ^ m * x.toInt := by
  rw [toInt_append_pos]
  simp

theorem toInt_bit (w : Word) (lo : Nat) : (w.extractLsb' lo 1).toInt = -((w.toNat / 2 ^ lo % 2 ^ 1 : Nat) : Int) := by
  rw [toInt_sign, toNat_field]

/-- A signed field of a word: its highest bit is the sign. -/
theorem toInt_field (w : Word) (lo len : Nat) : (w.extractLsb' lo (1 + len)).toInt =
    ((w.toNat / 2 ^ lo % 2 ^ len : Nat) : Int) - 2 ^ len * ((w.toNat / 2 ^ (lo + len) % 2 ^ 1 : Nat) : Int) := by
  rw [← BitVec.extractLsb'_append_extractLsb'_eq_extractLsb' (x := w) (rfl : lo + len = lo + len), toInt_append_pos,
    toInt_bit, toNat_field]
  ring

/-- Settles O5: an immediate is its signed highest field with the lower fields appended, each a digit of its own
weight. -/
theorem immediatesAssembleBitByBit : Obligations.ImmediatesAssembleBitByBit := by
  intro w b
  refine ⟨toInt_field w 20 11, ?_, ?_, ?_, ?_⟩
  · rw [immS, toInt_append_pos, toInt_field w 25 6, toNat_field]
    ring
  · rw [immB, toInt_append_zero, toInt_append_pos, toInt_append_pos, toInt_append_pos, toInt_bit, toNat_field,
      toNat_field, toNat_field]
    simp only [b]
    ring
  · rw [immU, toInt_append_zero, toInt_field w 12 19]
    simp only [b]
    ring
  · rw [immJ, toInt_append_zero, toInt_append_pos, toInt_append_pos, toInt_append_pos, toInt_bit, toNat_field,
      toNat_field, toNat_field]
    simp only [b]
    ring

end Immediates

/-! ### Rounding modes (R112, R271) -/

section RoundingModes

/-- The five modes in the order of their codes. -/
theorem ofCode_eq_getElem? (c : Rm) : RMode.ofCode c = [RMode.rne, .rtz, .rdn, .rup, .rmm][c.toNat]? := by
  revert c; decide

theorem ofCode_eq_none_iff (c : Rm) : RMode.ofCode c = none ↔ c = 5 ∨ c = 6 ∨ c = 7 := by
  revert c; decide

theorem roundingMode_eq (s : State) (rm : Rm) :
    s.roundingMode rm = if rm = 7 then [RMode.rne, .rtz, .rdn, .rup, .rmm][s.frm.toNat]?
        else [RMode.rne, .rtz, .rdn, .rup, .rmm][rm.toNat]? := by
  rw [State.roundingMode, ofCode_eq_getElem?, ofCode_eq_getElem?]

theorem roundingMode_eq_none_iff (s : State) (rm : Rm) :
    s.roundingMode rm = none ↔ rm = 5 ∨ rm = 6 ∨ (rm = 7 ∧ (s.frm = 5 ∨ s.frm = 6 ∨ s.frm = 7)) := by
  rw [State.roundingMode]
  split_ifs with h
  · simp only [ofCode_eq_none_iff, h, true_and, show (7 : Rm) ≠ 5 by decide, show (7 : Rm) ≠ 6 by decide, false_or]
  · simp only [ofCode_eq_none_iff, h, false_and]

/-- The rows of the 64-bit tables exist at XLEN = 64 alone (R113). -/
theorem only64_admits {xl : XLen} : Admission.only64.admits xl = true ↔ xl = .rv64 := by
  cases xl <;> decide

/-- The result is a next state with the status of `s`. -/
def Completes (s : State) (r : Res) : Prop := ∃ t, r = .next t ∧ t.status = s.status

/-- Every instruction with an `rm` field does nothing before its rounding mode is known, and completes in every mode
(R112, R270). -/
theorem exec_eq_withRm {s : State} {i : Instr} {rm : Rm} (hrm : i.rmField = some rm)
    (hadm : i.admission.admits s.cfg.xlen = true) :
    ∃ k, exec i s = withRm s i rm k ∧ ∀ m, Completes s (k m) := by
  cases i with
  | fmaddS | fmsubS | fnmsubS | fnmaddS | faddS | fsubS | fmulS | fdivS | fsqrtS | fcvtWS | fcvtWuS | fcvtSW | fcvtSWu
  | fmaddD | fmsubD | fnmsubD | fnmaddD | faddD | fsubD | fmulD | fdivD | fsqrtD | fcvtWD | fcvtWuD | fcvtDW
  | fcvtDWu =>
    obtain rfl := Option.some.inj hrm
    exact ⟨_, rfl, fun _ => ⟨_, rfl, rfl⟩⟩
  | fcvtLS | fcvtLuS | fcvtSL | fcvtSLu | fcvtLD | fcvtLuD | fcvtDL | fcvtDLu =>
    obtain rfl := Option.some.inj hrm
    exact ⟨_, onRv64_of_rv64 (only64_admits.1 hadm) _ _, fun _ => ⟨_, rfl, rfl⟩⟩
  | _ => cases hrm

/-- Settles O37: an instruction with an `rm` field is `withRm`, which traps exactly where the code names no mode. -/
theorem reservedRoundingModesTrap : Obligations.ReservedRoundingModesTrap := by
  intro s i rm hrm hadm
  obtain ⟨k, hexec, hcompletes⟩ := exec_eq_withRm hrm hadm
  rw [← roundingMode_eq_none_iff, Traps, hexec]
  refine ⟨fun hnone => ?_, fun hsome => ⟨roundingMode_eq s rm, ?_⟩⟩
  · rw [withRm, hnone, BitVec.ofNat_toNat]
    rfl
  · obtain ⟨m, hm⟩ := Option.ne_none_iff_exists'.1 hsome
    rw [withRm_of_some hm]
    exact hcompletes m

end RoundingModes

/-! ### The two instructions of li (R120) -/

section LoadImmediate

/-- hi20 makes up for the sign of lo12: the two add up to the constant, modulo 2^32 (R120). -/
theorem hi20_lo12_emod (imm : BitVec 32) :
    ((hi20 imm ++ (0 : BitVec 12)).toInt + (lo12 imm).toInt) % ((2 ^ 32 : Nat) : Int) =
      imm.toInt % ((2 ^ 32 : Nat) : Int) := by
  have himm := imm.isLt
  have hhi : (hi20 imm).toNat = (imm.toNat + 0x800) % 2 ^ 32 / 2 ^ 12 % 2 ^ 20 := by
    rw [hi20, toNat_field, BitVec.toNat_add]
    rfl
  have hlo : (lo12 imm).toNat = imm.toNat / 2 ^ 0 % 2 ^ 12 := toNat_field imm 0 12
  rw [toInt_append_zero, BitVec.toInt_eq_toNat_cond, BitVec.toInt_eq_toNat_cond, BitVec.toInt_eq_toNat_cond, hhi, hlo]
  split_ifs <;> omega

/-- Sign extension adds like integers (R8). -/
theorem signExtend_add_signExtend {n m : Nat} (k : Nat) (x : BitVec n) (y : BitVec m) :
    x.signExtend k + y.signExtend k = BitVec.ofInt k (x.toInt + y.toInt) :=
  (BitVec.ofInt_add x.toInt y.toInt).symm

/-- On 32 bits hi20 and lo12 add up to the constant (R120). -/
theorem hi20_add_lo12 (imm : BitVec 32) : hi20 imm ++ (0 : BitVec 12) + (lo12 imm).signExtend 32 = imm :=
  calc hi20 imm ++ (0 : BitVec 12) + (lo12 imm).signExtend 32
      = (hi20 imm ++ (0 : BitVec 12)).signExtend 32 + (lo12 imm).signExtend 32 := by rw [BitVec.signExtend_eq]
    _ = BitVec.ofInt 32 ((hi20 imm ++ (0 : BitVec 12)).toInt + (lo12 imm).toInt) := signExtend_add_signExtend 32 _ _
    _ = BitVec.ofInt 32 imm.toInt := BitVec.eq_of_toNat_eq (by
      rw [BitVec.toNat_ofInt, BitVec.toNat_ofInt, hi20_lo12_emod])
    _ = imm := BitVec.ofInt_toInt

/-- What an instruction writes to a register other than x0 is read there afterwards, cut to XLEN bits. -/
theorem xNat_wX_advance (s : State) {rd : XReg} (h : rd ≠ 0) {n : Nat} (v : BitVec n) :
    (s.wX rd v).advance.xNat rd = v.toNat % s.span :=
  (rX_toNat_congr rfl rfl rd).trans (rX_wX_same s h v)

theorem rX_wX_advance (s : State) {rd : XReg} (h : rd ≠ 0) (v : BitVec s.cfg.xlen.bits) :
    (s.wX rd v).advance.rX rd = v :=
  BitVec.eq_of_toNat_eq ((xNat_wX_advance s h v).trans (Nat.mod_eq_of_lt v.isLt))

/-- LUI then ADDI at XLEN = 32: the constant is the sum. -/
theorem immUpper_add_imm12 {s : State} (hxl : s.cfg.xlen = .rv32) (imm : BitVec 32) :
    (s.immUpper (hi20 imm) + s.imm12 (lo12 imm)).toNat = s.ofInt imm.toInt := by
  rw [State.immUpper, State.imm12, signExtend_add_signExtend, toNat_ofInt_span, State.ofInt, State.ofInt, State.span,
    hxl, XLen.bits, hi20_lo12_emod]

/-- The low word of the U-immediate at either width. -/
theorem setWidth_immUpper (s : State) (imm : BitVec 20) : (s.immUpper imm).setWidth 32 = imm ++ (0 : BitVec 12) := by
  have hbits : 32 ≤ s.cfg.xlen.bits := by cases s.cfg.xlen <;> decide
  ext j hj
  simp only [State.immUpper, BitVec.getElem_setWidth, BitVec.getLsbD_signExtend]
  simp [hj, hj.trans_le hbits]

/-- LUI then ADDIW at XLEN = 64: the low words add up to the constant, which is sign-extended. -/
theorem signExtend_low_word {s : State} (hxl : s.cfg.xlen = .rv64) (imm : BitVec 32) :
    (((s.immUpper (hi20 imm)).setWidth 32 + (lo12 imm).signExtend 32).signExtend 64).toNat = s.ofInt imm.toInt := by
  rw [setWidth_immUpper, hi20_add_lo12, State.ofInt, State.span, hxl]
  exact BitVec.toNat_ofInt _

theorem advance_twice_toNat {s t : State} (hcfg : t.cfg = s.cfg) (hpc : t.pc = s.advance.pc) :
    t.advance.pc.toNat = (s.pc.toNat + 8) % s.span := by
  rw [advance_toNat, hcfg, hpc, advance_toNat, Nat.mod_add_mod]
  rfl

/-- Settles O57: the second instruction reads what the first wrote to `rd`, and lo12 makes up for the carry of hi20. -/
theorem loadImmediateSequence : Obligations.LoadImmediateSequence := by
  intro s rd imm hrd second
  let t := (s.wX rd (s.immUpper (hi20 imm))).advance
  have hread : t.rX rd = s.immUpper (hi20 imm) := rX_wX_advance s hrd _
  have hpc : ∀ {n : Nat} (v : BitVec n), (t.wX rd v).advance.pc.toNat = (s.pc.toNat + 8) % s.span := fun v =>
    advance_twice_toNat (t := t.wX rd v) rfl rfl
  cases hxl : s.cfg.xlen with
  | rv32 =>
    have hsecond : second = .addi rd rd (lo12 imm) := by simp only [second, hxl]
    refine ⟨by rw [hsecond]; rfl, t, _, rfl, by rw [hsecond]; rfl, ?_, hpc _⟩
    rw [xNat_wX_advance t hrd, hread]
    exact (Nat.mod_eq_of_lt (BitVec.isLt _)).trans (immUpper_add_imm12 hxl imm)
  | rv64 =>
    have hsecond : second = .addiw rd rd (lo12 imm) := by simp only [second, hxl]
    have hexec : exec (.addiw rd rd (lo12 imm)) t =
        .next (t.wX rd ((t.rW rd + (lo12 imm).signExtend 32).signExtend 64)).advance := onRv64_of_rv64 (s := t) hxl _ _
    refine ⟨by rw [hsecond]; rfl, t, _, rfl, by rw [hsecond]; exact hexec, ?_, hpc _⟩
    rw [xNat_wX_advance t hrd, State.rW, hread]
    refine (congrArg (· % s.span) (signExtend_low_word hxl imm)).trans ?_
    rw [← toNat_ofInt_span]
    exact Nat.mod_eq_of_lt (BitVec.isLt _)

end LoadImmediate

end Sys2Proof.Proofs

/-!
# The base integer instructions (R130 to R167, R181 to R186, R382, R385)

First how a meaning that ends in a shared operation completes, then what the operands and results are as numbers, then
the statements of 40_rv32i.md. The lemmas of the first part take the meaning of the instruction as the equation `hexec`.
-/
namespace Sys2Proof.Proofs

open Sys2Proof.Machine Sys2Proof.Laws

/-! ### What the updates leave (R11, R24) -/

section Completion

variable {s : State} {i : Instr} {rd : XReg}

/-- Reading a register after it was written: x0 stays zero, another holds the value cut to XLEN bits (R9, R21). -/
theorem xNat_wX_same (s : State) (rd : XReg) {n : Nat} (v : BitVec n) :
    (s.wX rd v).xNat rd = if rd = 0 then 0 else v.toNat % s.span := by
  split_ifs with h
  · rw [h, xNat_zero]
  · exact rX_wX_same s h v

/-- Writing an integer register and setting the pc changes nothing else. -/
theorem frame_wX_setPc (s : State) (rd : XReg) {n m : Nat} (v : BitVec n) (target : BitVec m) :
    Frame s ((s.wX rd v).setPc target) (some rd) none [] :=
  ⟨rfl, rfl, rfl, fun _ hr => (rX_toNat_congr rfl rfl _).trans (rX_wX_other s (fun h => hr (congrArg some h)) v),
    fun _ _ => rfl, fun _ _ => ⟨rfl, rfl⟩⟩

/-- Setting the pc changes nothing else. -/
theorem frame_setPc (s : State) {m : Nat} (target : BitVec m) (xd : Option XReg) :
    Frame s (s.setPc target) xd none [] :=
  ⟨rfl, rfl, rfl, fun _ _ => rX_toNat_congr rfl rfl _, fun _ _ => rfl, fun _ _ => ⟨rfl, rfl⟩⟩

/-- A store of one byte adds no candidate of another byte (R72). -/
theorem noteStore_lookup_other {a b : Nat} (hab : b ≠ a) (old v : Byte) (u : Unfenced) :
    (noteStore a old v u).lookup b = u.lookup b := by
  induction u with
  | nil =>
    simp only [noteStore]
    split_ifs
    · rfl
    · rw [unfenced_lookup_cons, if_neg hab]
  | cons c u ih =>
    simp only [noteStore]
    split_ifs with hlt hv heq hold
    · rfl
    · rw [unfenced_lookup_cons, if_neg hab]
    · rfl
    · rw [unfenced_lookup_cons, unfenced_lookup_cons, if_neg hab, if_neg (heq ▸ hab)]
    · rw [unfenced_lookup_cons, unfenced_lookup_cons, ih]

/-- Storing bytes adds no candidate of a byte it does not store (R72). -/
theorem storeBytes_lookup_other {cs : List Host.Cell} (mu : Memory × Unfenced) {b : Nat} (h : b ∉ cs.map Prod.fst) :
    (storeBytes cs mu).2.lookup b = mu.2.lookup b := by
  induction cs generalizing mu with
  | nil => rfl
  | cons c cs ih =>
    obtain ⟨hne, hrest⟩ := not_or.1 (List.mem_cons.not.1 h)
    exact (ih _ hrest).trans (noteStore_lookup_other hne _ _ _)

@[simp] theorem byteAddrs_length {w : Nat} (a : BitVec w) (n : Nat) : (byteAddrs a n).length = n := by simp [byteAddrs]

/-- Storing bytes and advancing changes nothing else. -/
theorem frame_memWrite_advance (s : State) {w k : Nat} (a : BitVec w) (n : Nat) (v : BitVec k) :
    Frame s (s.memWrite a n v).advance none none (byteAddrs a n) :=
  ⟨rfl, rfl, rfl, fun _ _ => rX_toNat_congr rfl rfl _, fun _ _ => rfl, fun _ hb =>
    ⟨memByte_memWrite_other s a n v hb, storeBytes_lookup_other _ (by rwa [storeCells_addrs])⟩⟩

/-! ### How a meaning completes -/

/-- A meaning that ends in a register write completes with the value cut to XLEN bits. -/
theorem writesX_of_finishX {n : Nat} {v : BitVec n} (hexec : exec i s = s.finishX rd v) :
    WritesX s i rd (v.toNat % s.span) :=
  ⟨(s.wX rd v).advance, hexec, (rX_toNat_congr rfl rfl rd).trans (xNat_wX_same s rd v), advance_toNat _, by simp,
    ⟨rfl, rfl⟩, frame_wX_setPc s rd v _⟩

/-- A meaning that ends in the write of an XLEN-bit value completes with that value. -/
theorem writesX_of_word {v : BitVec s.cfg.xlen.bits} {r : Nat} (hexec : exec i s = s.finishX rd v)
    (hv : v.toNat = r) : WritesX s i rd r := by
  have h := writesX_of_finishX hexec
  rwa [State.span, Nat.mod_eq_of_lt v.isLt, hv] at h

/-- A meaning that ends in the write of the pattern of an integer completes with its number. -/
theorem writesX_of_ofInt {v : BitVec s.cfg.xlen.bits} {z : Int} (hexec : exec i s = s.finishX rd v)
    (hv : v = BitVec.ofInt s.cfg.xlen.bits z) : WritesX s i rd (s.ofInt z) :=
  writesX_of_word hexec (hv ▸ toNat_ofInt_span s z)

/-- Two low bits are zero exactly in the multiples of 4. -/
theorem low_bits_eq_zero_iff {w : Nat} (a : BitVec w) : a.extractLsb' 0 2 = 0 ↔ a.toNat % 4 = 0 :=
  ⟨toNat_mod_four_of_low_bits, fun h => BitVec.eq_of_toNat_eq (by simpa using h)⟩

/-- The trap value is the address, zero-extended (R381). -/
theorem traps_of_raise {e : Exc} {n : Nat} {v : BitVec n} (hexec : exec i s = raise s e v) : Traps s i e v.toNat := by
  rw [Traps, BitVec.ofNat_toNat]
  exact hexec

/-- The return address is that of the next instruction in sequence. -/
theorem rPc_add_four_mod_span (s : State) : (s.rPc + 4).toNat % s.span = s.nextPc :=
  (setPc_toNat s (s.rPc + 4)).symm.trans (advance_toNat s)

/-- A jump goes to a multiple of 4 with the return address in `rd`, or raises there (R133, R134, R382). -/
theorem transfers_or_traps_of_jump {a : BitVec s.cfg.xlen.bits} {target : Nat} (hexec : exec i s = jump s rd a)
    (ha : a.toNat = target) :
    (target % 4 = 0 → Transfers s i target rd s.nextPc) ∧
      (target % 4 ≠ 0 → Traps s i .instructionAddressMisaligned target) := by
  subst ha
  have hlow := low_bits_eq_zero_iff a
  constructor
  · intro haligned
    refine ⟨(s.wX rd (s.rPc + 4)).setPc a, hexec.trans (if_pos (hlow.2 haligned)), ?_, ?_, rfl, ⟨rfl, rfl⟩,
      frame_wX_setPc s rd _ a⟩
    · exact (setPc_toNat _ a).trans (Nat.mod_eq_of_lt a.isLt)
    · rw [← rPc_add_four_mod_span, ← xNat_wX_same]
      exact rX_toNat_congr rfl rfl rd
  · exact fun hmisaligned => traps_of_raise (hexec.trans (if_neg (hlow.not.2 hmisaligned)))

/-- Setting the pc is a transfer that writes no register. -/
theorem transfers_of_setPc {n target : Nat} {a : BitVec n} (hexec : exec i s = .next (s.setPc a))
    (ha : (s.setPc a).pc.toNat = target) : Transfers s i target 0 0 :=
  ⟨s.setPc a, hexec, ha, xNat_zero _, rfl, ⟨rfl, rfl⟩, frame_setPc s a _⟩

/-- The pc plus an offset is the pattern of the integer sum (R8, R23). -/
theorem rPc_add_signExtend (s : State) {n : Nat} (off : BitVec n) :
    s.rPc + off.signExtend s.cfg.xlen.bits = BitVec.ofInt s.cfg.xlen.bits (s.pc.toNat + off.toInt) := by
  rw [BitVec.ofInt_add, BitVec.ofInt_natCast, BitVec.ofNat_toNat]
  rfl

/-- A branch on `c` is a branch on what `c` decides (R135 to R140, R382). -/
theorem branchesTo_of_branch {c : Bool} {taken : Prop} {off : BitVec 13} (hexec : exec i s = branch s c off)
    (hc : c = true ↔ taken) : BranchesTo s i taken (s.ofInt (s.pc.toNat + off.toInt)) := by
  rw [← hc, BranchesTo, ← toNat_ofInt_span, ← rPc_add_signExtend]
  have hlow := low_bits_eq_zero_iff (s.rPc + off.signExtend s.cfg.xlen.bits)
  refine ⟨fun hnot => ?_, fun htaken haligned => ?_, fun htaken hmisaligned => ?_⟩
  · exact transfers_of_setPc (hexec.trans (if_neg hnot)) (advance_toNat s)
  · exact transfers_of_setPc (hexec.trans ((if_pos htaken).trans (if_pos (hlow.2 haligned))))
      ((setPc_toNat s _).trans (Nat.mod_eq_of_lt (BitVec.isLt _)))
  · exact traps_of_raise (hexec.trans ((if_pos htaken).trans (if_neg (hlow.not.2 hmisaligned))))

/-- A plain access to bytes that exist raises nothing, when it is aligned or emulated (R54, R385). -/
theorem accessExc_of_plainAccessible {w n : Nat} {a : BitVec w} (h : s.plainAccessible a n) (k : Access) :
    s.accessExc k false a n = none := by
  obtain ⟨haligned, hmapped⟩ := h
  exact accessExc_eq_none.2 ⟨haligned.imp_right fun hemulate => ⟨rfl, hemulate⟩, hmapped⟩

theorem load_of_plainAccessible {w n : Nat} {a : BitVec w} (h : s.plainAccessible a n) (k : BitVec (8 * n) → Res) :
    load s a n k = k (s.memRead a n) :=
  load_of_none (accessExc_of_plainAccessible h .load) k

theorem store_of_plainAccessible {w k n : Nat} {a : BitVec w} (h : s.plainAccessible a n) (v : BitVec k) :
    store s a n v = .next (s.memWrite a n v).advance := by
  rw [store, accessExc_of_plainAccessible h]

/-- A store of at most eight bytes completes where they exist (R146 to R148, R183). -/
theorem storesAt_of_store {a : BitVec s.cfg.xlen.bits} {n k : Nat} {v : BitVec k} (hexec : exec i s = store s a n v)
    (hm : Memory.wf s.mem = true) (hn : n ≤ 8) (hacc : s.plainAccessible a n) :
    StoresAt s i (byteAddrs a n) v.toNat := by
  refine ⟨(s.memWrite a n v).advance, hexec.trans (store_of_plainAccessible hacc v), ?_, advance_toNat _, rfl,
    ⟨rfl, rfl⟩, frame_memWrite_advance s a n v⟩
  rw [byteAddrs_length]
  exact bytesNat_memWrite s hm a (le_span_of_le_eight _ hn) v

/-! ### Bytes read as numbers (R51) -/

theorem leNat_lt (bs : List Byte) : leNat bs < 256 ^ bs.length := by
  induction bs with
  | nil => simp [leNat]
  | cons b bs ih =>
    have hb := b.isLt
    rw [leNat, List.length_cons, Nat.pow_succ]
    omega

/-- The value read is the number that the bytes spell. -/
theorem memRead_toNat (s : State) {w : Nat} (a : BitVec w) (n : Nat) :
    (s.memRead a n).toNat = s.bytesNat (byteAddrs a n) := by
  have hlt : s.bytesNat (byteAddrs a n) < 256 ^ n := by
    simpa [State.bytesNat] using leNat_lt ((byteAddrs a n).map (memByte s.mem))
  rw [State.memRead, BitVec.toNat_ofNat, Nat.pow_mul]
  exact Nat.mod_eq_of_lt hlt

/-- Sign extension of the value read (R141 to R143). -/
theorem memRead_signExtend (s : State) {w : Nat} (a : BitVec w) (n m : Nat) :
    (s.memRead a n).signExtend m = BitVec.ofInt m (signedBytes n (s.bytesNat (byteAddrs a n))) := by
  rw [BitVec.signExtend, BitVec.toInt_eq_toNat_bmod, memRead_toNat, signedBytes, Nat.pow_mul]

/-- A load that sign-extends completes where its bytes exist. -/
theorem writesX_of_signed_load {w n : Nat} {a : BitVec w}
    (hexec : exec i s = load s a n fun v => s.finishX rd (v.signExtend s.cfg.xlen.bits))
    (hacc : s.plainAccessible a n) : WritesX s i rd (s.ofInt (signedBytes n (s.bytesNat (byteAddrs a n)))) :=
  writesX_of_ofInt (hexec.trans (load_of_plainAccessible hacc _)) (memRead_signExtend s a n _)

/-- A load that zero-extends completes where its bytes exist. -/
theorem writesX_of_unsigned_load {w n : Nat} {a : BitVec w}
    (hexec : exec i s = load s a n fun v => s.finishX rd (v.setWidth s.cfg.xlen.bits))
    (hn : 8 * n ≤ s.cfg.xlen.bits) (hacc : s.plainAccessible a n) :
    WritesX s i rd (s.bytesNat (byteAddrs a n)) :=
  writesX_of_word (hexec.trans (load_of_plainAccessible hacc _))
    ((BitVec.toNat_setWidth_of_le hn).trans (memRead_toNat s a n))

/-- LD needs no extension. -/
theorem writesX_of_doubleword_load {w : Nat} {a : BitVec w}
    (hexec : exec i s = load s a 8 fun v => s.finishX rd v) (hxl : s.cfg.xlen = .rv64)
    (hacc : s.plainAccessible a 8) : WritesX s i rd (s.bytesNat (byteAddrs a 8)) := by
  have h := writesX_of_finishX (hexec.trans (load_of_plainAccessible hacc _))
  have hspan : s.span = 2 ^ (8 * 8) := by rw [State.span, hxl]; rfl
  rwa [hspan, Nat.mod_eq_of_lt (BitVec.isLt _), memRead_toNat] at h

end Completion

/-! ### Operands and results as numbers (R8, R103, R108) -/

section Operands

variable (s : State) {w : Nat}

theorem boolX_toNat (c : Bool) : (s.boolX c).toNat = if c = true then 1 else 0 := by
  unfold State.boolX
  cases s.cfg.xlen <;> cases c <;> rfl

theorem boolX_slt_toNat (x y : BitVec w) : (s.boolX (x.slt y)).toNat = if x.toInt < y.toInt then 1 else 0 := by
  simp only [boolX_toNat, BitVec.slt_iff_toInt_lt]

theorem boolX_ult_toNat (x y : BitVec w) : (s.boolX (x.ult y)).toNat = if x.toNat < y.toNat then 1 else 0 := by
  simp only [boolX_toNat, BitVec.ult_iff_toNat_lt]

/-- Sign extension keeps the signed value of a 12-bit immediate (R103). -/
theorem imm12_toInt (imm : BitVec 12) : (s.imm12 imm).toInt = imm.toInt :=
  BitVec.toInt_signExtend_of_le (by cases s.cfg.xlen <;> decide)

theorem imm12_toNat (imm : BitVec 12) : (s.imm12 imm).toNat = s.ofInt imm.toInt := toNat_ofInt_span s imm.toInt

/-- The shift amount is `x[rs2]` modulo XLEN (R108). -/
theorem shiftAmount_eq (rs2 : XReg) : s.shiftAmount rs2 = s.xNat rs2 % s.cfg.xlen.bits := by
  unfold State.shiftAmount
  split
  · next h => exact (BitVec.extractLsb'_toNat 0 5 _).trans (congrArg (s.xNat rs2 % ·) (congrArg XLen.bits h).symm)
  · next h => exact (BitVec.extractLsb'_toNat 0 6 _).trans (congrArg (s.xNat rs2 % ·) (congrArg XLen.bits h).symm)

/-- Clearing bit 0 rounds down to an even number (R134). -/
theorem and_not_one_toNat (a : BitVec w) : (a &&& ~~~(1 : BitVec w)).toNat = a.toNat / 2 * 2 := by
  have hshift : a &&& ~~~(1 : BitVec w) = a >>> 1 <<< 1 := by
    ext j hj
    cases j <;> simp [Nat.add_comm 1, hj, BitVec.getLsbD_eq_getElem]
  have ha := a.isLt
  rw [hshift, BitVec.toNat_shiftLeft, BitVec.toNat_ushiftRight, Nat.shiftRight_eq_div_pow, Nat.shiftLeft_eq]
  exact Nat.mod_eq_of_lt (by omega)

theorem shiftLeft_toNat (x : BitVec w) (k : Nat) : (x <<< k).toNat = x.toNat * 2 ^ k % 2 ^ w := by
  rw [BitVec.toNat_shiftLeft, Nat.shiftLeft_eq]

theorem ushiftRight_toNat (x : BitVec w) (k : Nat) : (x >>> k).toNat = x.toNat / 2 ^ k := by
  rw [BitVec.toNat_ushiftRight, Nat.shiftRight_eq_div_pow]

/-- An arithmetic shift divides the signed value, rounding down. -/
theorem sshiftRight_eq_ofInt (x : BitVec w) (k : Nat) : x.sshiftRight k = BitVec.ofInt w (x.toInt / 2 ^ k) := by
  rw [BitVec.sshiftRight, Int.shiftRight_eq_div_pow]
  norm_cast

theorem add_eq_ofInt (x y : BitVec w) : x + y = BitVec.ofInt w (x.toInt + y.toInt) := by
  rw [BitVec.ofInt_add, BitVec.ofInt_toInt, BitVec.ofInt_toInt]

theorem sub_eq_ofInt (x y : BitVec w) : x - y = BitVec.ofInt w (x.toInt - y.toInt) := by
  rw [Int.sub_eq_add_neg, BitVec.ofInt_add, BitVec.ofInt_neg, BitVec.ofInt_toInt, BitVec.ofInt_toInt,
    BitVec.sub_eq_add_neg]

end Operands

/-! ### The obligations of 40_rv32i.md -/

/-- Settles O17: both results are patterns of integer sums. -/
theorem upperImmediateResults : Obligations.UpperImmediateResults := by
  intro s rd imm v
  exact ⟨writesX_of_ofInt rfl rfl, writesX_of_ofInt rfl (rPc_add_signExtend s _)⟩

/-- Settles O18: both jumps are the shared one, to the patterns of their sums, with bit 0 cleared in JALR. -/
theorem jumpsTransferOrRaise : Obligations.JumpsTransferOrRaise := by
  intro s rd rs1 off imm t u
  have ht : (s.rPc + off.signExtend s.cfg.xlen.bits).toNat = t := by rw [rPc_add_signExtend, toNat_ofInt_span]
  have hu : (s.ea rs1 imm &&& ~~~1).toNat = u := by rw [and_not_one_toNat, ea_eq_ofInt, toNat_ofInt_span]
  obtain ⟨hjal, hjalTrap⟩ := transfers_or_traps_of_jump (i := .jal rd off) rfl ht
  obtain ⟨hjalr, hjalrTrap⟩ := transfers_or_traps_of_jump (i := .jalr rd rs1 imm) rfl hu
  exact ⟨hjal, hjalTrap, hjalr, hjalrTrap⟩

/-- Settles O19: the six branches differ in the comparison alone. -/
theorem branchesCompareAndTransfer : Obligations.BranchesCompareAndTransfer := by
  intro s rs1 rs2 off t
  have heq : s.rX rs1 = s.rX rs2 ↔ s.xNat rs1 = s.xNat rs2 := BitVec.toNat_inj.symm
  refine ⟨branchesTo_of_branch rfl (beq_iff_eq.trans heq), branchesTo_of_branch rfl (bne_iff_ne.trans heq.not),
    branchesTo_of_branch rfl BitVec.slt_iff_toInt_lt, branchesTo_of_branch rfl ?ge,
    branchesTo_of_branch rfl BitVec.ult_iff_toNat_lt, branchesTo_of_branch rfl ?geu⟩
  case ge => exact Bool.not_iff_not.trans (BitVec.slt_iff_toInt_lt.not.trans not_lt)
  case geu => exact Bool.not_iff_not.trans (BitVec.ult_iff_toNat_lt.not.trans not_lt)

/-- Settles O20: a load whose access raises nothing extends the value read. -/
theorem loadsExtendLittleEndianBytes : Obligations.LoadsExtendLittleEndianBytes := by
  intro s rd rs1 imm a v
  have hbits : 8 * 2 ≤ s.cfg.xlen.bits := by cases s.cfg.xlen <;> decide
  refine ⟨fun h => ⟨writesX_of_signed_load rfl h, writesX_of_unsigned_load rfl (by omega) h⟩,
    fun h => ⟨writesX_of_signed_load rfl h, writesX_of_unsigned_load rfl hbits h⟩, writesX_of_signed_load rfl,
    fun hxl => ?_, fun hxl => ?_⟩
  · exact writesX_of_unsigned_load (onRv64_of_rv64 hxl _ _) (by rw [hxl]; decide)
  · exact writesX_of_doubleword_load (onRv64_of_rv64 hxl _ _) hxl

/-- Settles O21: the four stores differ in the number of bytes alone. -/
theorem storesWriteTheLowBytes : Obligations.StoresWriteTheLowBytes := by
  intro s rs2 rs1 imm hm a
  exact ⟨storesAt_of_store rfl hm (by decide), storesAt_of_store rfl hm (by decide),
    storesAt_of_store rfl hm (by decide), fun hxl => storesAt_of_store (onRv64_of_rv64 hxl _ _) hm le_rfl⟩

/-- Settles O23: each result is that of the sign-extended immediate. -/
theorem immediateArithmeticResults : Obligations.ImmediateArithmeticResults := by
  intro s rd rs1 imm v
  refine ⟨writesX_of_ofInt rfl (ea_eq_ofInt s rs1 imm), writesX_of_word rfl ?slti, writesX_of_word rfl ?sltiu,
    writesX_of_word rfl ?xori, writesX_of_word rfl ?ori, writesX_of_word rfl ?andi⟩
  case slti => rw [boolX_slt_toNat, imm12_toInt]; rfl
  case sltiu => rw [boolX_ult_toNat, imm12_toNat]; rfl
  case xori => rw [BitVec.toNat_xor, imm12_toNat]; rfl
  case ori => rw [BitVec.toNat_or, imm12_toNat]; rfl
  case andi => rw [BitVec.toNat_and, imm12_toNat]; rfl

/-- Settles O24: the rows of both widths shift alike, by their own amount. -/
theorem immediateShiftResults : Obligations.ImmediateShiftResults := by
  intro s rd rs1 sh sh6
  refine ⟨fun hxl => ⟨writesX_of_word rfl ?left, writesX_of_word rfl (ushiftRight_toNat _ _),
    writesX_of_ofInt rfl (sshiftRight_eq_ofInt _ _)⟩, fun hxl => ⟨writesX_of_word (onRv64_of_rv64 hxl _ _) ?left64,
    writesX_of_word (onRv64_of_rv64 hxl _ _) (ushiftRight_toNat _ _),
    writesX_of_ofInt (onRv64_of_rv64 hxl _ _) (sshiftRight_eq_ofInt _ _)⟩⟩
  all_goals exact (shiftLeft_toNat _ _).trans (congrArg (fun xl : XLen => _ % 2 ^ xl.bits) hxl)

/-- Settles O25: sums, differences and arithmetic shifts are patterns of integers, the others of the unsigned values. -/
theorem registerArithmeticResults : Obligations.RegisterArithmeticResults := by
  intro s rd rs1 rs2 k
  have hk : s.shiftAmount rs2 = k := shiftAmount_eq s rs2
  exact ⟨writesX_of_ofInt rfl (add_eq_ofInt _ _), writesX_of_ofInt rfl (sub_eq_ofInt _ _),
    writesX_of_word rfl (hk ▸ shiftLeft_toNat _ _), writesX_of_word rfl (boolX_slt_toNat s _ _),
    writesX_of_word rfl (boolX_ult_toNat s _ _), writesX_of_word rfl (BitVec.toNat_xor _ _),
    writesX_of_word rfl (hk ▸ ushiftRight_toNat _ _), writesX_of_ofInt rfl (hk ▸ sshiftRight_eq_ofInt _ _),
    writesX_of_word rfl (BitVec.toNat_or _ _), writesX_of_word rfl (BitVec.toNat_and _ _)⟩

end Sys2Proof.Proofs

/-!
# The word instructions of RV64I (R180, R187 to R195)

All nine end in `finishW`, which sign-extends a 32-bit result. So each needs its 32-bit result as the pattern of an
integer, from the low words of its operands.
-/
namespace Sys2Proof.Proofs

open Sys2Proof.Machine Sys2Proof.Laws

/-! ### Low words as numbers (R8, R193) -/

section LowWords

variable (s : State) (r : XReg)

theorem rW_toNat : (s.rW r).toNat = s.xNat r % 2 ^ 32 := BitVec.toNat_setWidth 32 (s.rX r)

theorem rW_toInt : (s.rW r).toInt = low32 ((s.xNat r % 2 ^ 32 : Nat) : Int) := by
  rw [BitVec.toInt_eq_toNat_bmod, rW_toNat, low32]

/-- The low word depends on the signed value alone, modulo 2^32, at either XLEN. -/
theorem rW_eq_ofInt : s.rW r = BitVec.ofInt 32 (s.xInt r) := by
  have hbits : 32 ≤ s.cfg.xlen.bits := by cases s.cfg.xlen <;> decide
  apply BitVec.eq_of_toInt_eq
  rw [State.rW, BitVec.toInt_setWidth, BitVec.toInt_ofInt, State.xInt, BitVec.toInt_eq_toNat_bmod,
    Int.bmod_bmod_of_dvd (Nat.pow_dvd_pow 2 hbits)]

/-- The shift amount is `x[rs2]` modulo 32 (R193). -/
theorem shiftAmountW_eq : s.shiftAmountW r = s.xNat r % 32 := BitVec.extractLsb'_toNat 0 5 (s.rX r)

end LowWords

/-! ### 32-bit results as patterns of integers -/

section WordResults

theorem shiftLeft_eq_ofInt {w : Nat} (x : BitVec w) (k : Nat) :
    x <<< k = BitVec.ofInt w ((x.toNat : Int) * 2 ^ k) := by
  apply BitVec.eq_of_toNat_eq
  rw [shiftLeft_toNat, BitVec.toNat_ofInt]
  norm_cast

theorem ushiftRight_eq_ofInt {w : Nat} (x : BitVec w) (k : Nat) :
    x >>> k = BitVec.ofInt w ((x.toNat / 2 ^ k : Nat) : Int) := by
  rw [BitVec.ofInt_natCast, ← ushiftRight_toNat, BitVec.ofNat_toNat, BitVec.setWidth_eq]

/-- Sign extension takes the pattern of an integer to that of its signed low word. -/
theorem signExtend_ofInt_eq_low32 (m : Nat) (z : Int) :
    (BitVec.ofInt 32 z).signExtend m = BitVec.ofInt m (low32 z) := by
  rw [BitVec.signExtend, BitVec.toInt_ofInt, low32]

/-- A word instruction with the pattern of an integer as its result writes the signed low word of it (R180). -/
theorem writesX_of_finishW {s : State} {i : Instr} {rd : XReg} {v : BitVec 32} {z : Int} (hxl : s.cfg.xlen = .rv64)
    (hexec : exec i s = onRv64 s i (s.finishW rd v)) (hv : v = BitVec.ofInt 32 z) :
    WritesX s i rd (s.ofInt (low32 z)) := by
  have hword := writesX_of_finishX (hexec.trans (onRv64_of_rv64 hxl i _))
  have hbits : s.cfg.xlen.bits = 64 := congrArg XLen.bits hxl
  rwa [hv, signExtend_ofInt_eq_low32, ← hbits, toNat_ofInt_span, State.span, ← toNat_ofInt_span,
    Nat.mod_eq_of_lt (BitVec.isLt _)] at hword

end WordResults

/-! ### The obligation of 41_rv64i.md -/

/-- Settles O27: sums and differences are those of the signed operands modulo 2^32; left and logical right shifts are of
the unsigned low word, arithmetic ones of the signed. -/
theorem wordArithmeticResults : Obligations.WordArithmeticResults := by
  intro s rd rs1 rs2 imm sh hxl k u w
  have hk : s.shiftAmountW rs2 = k := shiftAmountW_eq s rs2
  have hleft (j : Nat) : s.rW rs1 <<< j = BitVec.ofInt 32 ((u : Int) * 2 ^ j) := by
    rw [shiftLeft_eq_ofInt, rW_toNat]
  have hright (j : Nat) : s.rW rs1 >>> j = BitVec.ofInt 32 ((u / 2 ^ j : Nat) : Int) := by
    rw [ushiftRight_eq_ofInt, rW_toNat]
  have harith (j : Nat) : (s.rW rs1).sshiftRight j = BitVec.ofInt 32 (low32 u / 2 ^ j) := by
    rw [sshiftRight_eq_ofInt, rW_toInt]
  refine ⟨writesX_of_finishW hxl rfl ?addiw, writesX_of_finishW hxl rfl (hleft _),
    writesX_of_finishW hxl rfl (hright _), writesX_of_finishW hxl rfl (harith _),
    writesX_of_finishW hxl rfl ?addw, writesX_of_finishW hxl rfl ?subw,
    writesX_of_finishW hxl rfl (hk ▸ hleft _), writesX_of_finishW hxl rfl (hk ▸ hright _),
    writesX_of_finishW hxl rfl (hk ▸ harith _)⟩
  case addiw => rw [rW_eq_ofInt, BitVec.ofInt_add]; rfl
  case addw => rw [rW_eq_ofInt, rW_eq_ofInt, BitVec.ofInt_add]
  case subw => rw [rW_eq_ofInt, rW_eq_ofInt, Int.sub_eq_add_neg, BitVec.ofInt_add, BitVec.ofInt_neg,
    BitVec.sub_eq_add_neg]

end Sys2Proof.Proofs

/-!
# Multiplication and division (R200 to R209, R216 to R220)

The four division functions have one equation per row of R209, and away from those rows the quotient and remainder that
truncate toward zero. On overflow the two readings agree modulo 2^n, so one equation covers every nonzero divisor. The
word forms are the same functions on low words.
-/
namespace Sys2Proof.Proofs

open Sys2Proof.Machine Sys2Proof.Laws

/-! ### Products, quotients and remainders (R201, R205 to R209) -/

section Arithmetic

variable {n : Nat}

theorem mul_eq_ofInt (x y : BitVec n) : x * y = BitVec.ofInt n (x.toInt * y.toInt) := by
  rw [BitVec.ofInt_mul, BitVec.ofInt_toInt, BitVec.ofInt_toInt]

@[simp] theorem divSigned_zero (a : BitVec n) : divSigned a 0 = BitVec.allOnes n := if_pos rfl

@[simp] theorem divUnsigned_zero (a : BitVec n) : divUnsigned a 0 = BitVec.allOnes n := if_pos rfl

@[simp] theorem remSigned_zero (a : BitVec n) : remSigned a 0 = a := if_pos rfl

@[simp] theorem remUnsigned_zero (a : BitVec n) : remUnsigned a 0 = a := if_pos rfl

theorem ne_zero_of_toInt_eq_neg_one {b : BitVec n} (hb : b.toInt = -1) : b ≠ 0 := by
  rintro rfl
  exact absurd (BitVec.toInt_zero.symm.trans hb) (by decide)

theorem divSigned_overflow {a b : BitVec n} (ha : a.toInt = -2 ^ (n - 1)) (hb : b.toInt = -1) : divSigned a b = a :=
  (if_neg (ne_zero_of_toInt_eq_neg_one hb)).trans (if_pos ⟨ha, hb⟩)

theorem remSigned_overflow {a b : BitVec n} (ha : a.toInt = -2 ^ (n - 1)) (hb : b.toInt = -1) : remSigned a b = 0 :=
  (if_neg (ne_zero_of_toInt_eq_neg_one hb)).trans (if_pos ⟨ha, hb⟩)

/-- The least value is its own negation modulo 2^n: the dividend of an overflow is its quotient by -1. -/
theorem neg_eq_self_of_toInt_eq_least {a : BitVec n} (hn : 0 < n) (ha : a.toInt = -2 ^ (n - 1)) : -a = a := by
  have hmin : a = BitVec.intMin n := by
    apply BitVec.eq_of_toInt_eq
    rw [ha, BitVec.toInt_intMin_of_pos hn]
  rw [hmin, BitVec.neg_intMin]

/-- The quotient by a divisor other than zero, overflow included (R205). -/
theorem divSigned_of_ne_zero (a : BitVec n) {b : BitVec n} (hb : b ≠ 0) :
    divSigned a b = BitVec.ofInt n (a.toInt.tdiv b.toInt) := by
  by_cases hover : a.toInt = -2 ^ (n - 1) ∧ b.toInt = -1
  · obtain ⟨hmin, hneg⟩ := hover
    have hn : 0 < n := Nat.pos_of_ne_zero (by rintro rfl; exact hb (Subsingleton.elim _ _))
    calc divSigned a b = a := divSigned_overflow hmin hneg
      _ = -a := (neg_eq_self_of_toInt_eq_least hn hmin).symm
      _ = BitVec.ofInt n (a.toInt.tdiv b.toInt) := by
        rw [hneg, Int.tdiv_neg, Int.tdiv_one, BitVec.ofInt_neg, BitVec.ofInt_toInt]
  · exact (if_neg hb).trans (if_neg hover)

/-- The remainder by a divisor other than zero, overflow included (R207). -/
theorem remSigned_of_ne_zero (a : BitVec n) {b : BitVec n} (hb : b ≠ 0) :
    remSigned a b = BitVec.ofInt n (a.toInt.tmod b.toInt) := by
  by_cases hover : a.toInt = -2 ^ (n - 1) ∧ b.toInt = -1
  · obtain ⟨hmin, hneg⟩ := hover
    rw [remSigned_overflow hmin hneg, hneg, Int.tmod_neg, Int.tmod_one]
    rfl
  · rw [Int.tmod_def]
    exact (if_neg hb).trans (if_neg hover)

theorem divUnsigned_of_ne_zero (a : BitVec n) {b : BitVec n} (hb : b ≠ 0) :
    divUnsigned a b = BitVec.ofNat n (a.toNat / b.toNat) := if_neg hb

theorem remUnsigned_of_ne_zero (a : BitVec n) {b : BitVec n} (hb : b ≠ 0) :
    remUnsigned a b = BitVec.ofNat n (a.toNat % b.toNat) := if_neg hb

end Arithmetic

/-! ### Operands and results as numbers (R8) -/

section Numbers

variable (s : State) (r : XReg)

theorem rX_eq_zero_iff : s.rX r = 0 ↔ s.xNat r = 0 := BitVec.toNat_inj.symm

theorem rX_eq_ofInt : s.rX r = BitVec.ofInt s.cfg.xlen.bits (s.xInt r) := BitVec.ofInt_toInt.symm

/-- The low word is signed by its own top bit (R215). -/
theorem rW_toInt_eq_low32 : (s.rW r).toInt = low32 (s.xInt r) := by rw [rW_eq_ofInt, BitVec.toInt_ofInt, low32]

theorem rW_eq_zero_iff : s.rW r = 0 ↔ low32 (s.xInt r) = 0 := by
  rw [← rW_toInt_eq_low32, ← BitVec.toInt_inj]
  rfl

theorem xNat_lt_span : s.xNat r < s.span := (s.rX r).isLt

end Numbers

/-- A meaning that ends in the write of a number below 2^XLEN completes with that number. -/
theorem writesX_of_ofNat {s : State} {i : Instr} {rd : XReg} {m : Nat}
    (hexec : exec i s = s.finishX rd (BitVec.ofNat s.cfg.xlen.bits m)) (hm : m < s.span) : WritesX s i rd m :=
  writesX_of_word hexec ((BitVec.toNat_ofNat m _).trans (Nat.mod_eq_of_lt hm))

/-! ### The obligations of 42_rv32m.md and 43_rv64m.md -/

/-- Settles O28: every result is the pattern of the integer product or of its high half. -/
theorem multiplyResults : Obligations.MultiplyResults := by
  intro s rd rs1 rs2
  have hspan : (s.span : Int) = 2 ^ s.cfg.xlen.bits := Nat.cast_pow 2 _
  refine ⟨writesX_of_ofInt rfl (mul_eq_ofInt _ _), writesX_of_ofInt rfl (by rw [hspan]; rfl),
    writesX_of_ofInt rfl (by rw [hspan]; rfl), writesX_of_ofNat rfl ?mulhu,
    fun hxl => writesX_of_finishW hxl rfl ?mulw⟩
  case mulhu =>
    exact Nat.div_lt_of_lt_mul (Nat.mul_lt_mul'' (xNat_lt_span s rs1) (xNat_lt_span s rs2))
  case mulw => rw [rW_eq_ofInt, rW_eq_ofInt, BitVec.ofInt_mul]

/-- Settles O29: each row of R209 is one equation of a division function, at XLEN and at 32 bits. -/
theorem divisionCornerResults : Obligations.DivisionCornerResults := by
  intro s rd rs1 rs2
  refine ⟨fun hzero => ?byZero, fun hmin hneg => ?overflow, fun hxl hzero => ?wordByZero,
    fun hxl hmin hneg => ?wordOverflow⟩
  case byZero =>
    have hb : s.rX rs2 = 0 := (rX_eq_zero_iff s rs2).2 hzero
    refine ⟨writesX_of_word rfl ?divu, writesX_of_word rfl ?remu, writesX_of_ofInt rfl ?div, writesX_of_word rfl ?rem⟩
    case divu => rw [hb, divUnsigned_zero, BitVec.toNat_allOnes]; rfl
    case remu => rw [hb, remUnsigned_zero]; rfl
    case div => rw [hb, divSigned_zero, ← BitVec.neg_one_eq_allOnes, BitVec.ofInt_neg]; rfl
    case rem => rw [hb, remSigned_zero]; rfl
  case overflow =>
    refine ⟨writesX_of_ofInt rfl ?div, writesX_of_word rfl ?rem⟩
    case div => rw [divSigned_overflow hmin hneg, ← hmin]; exact rX_eq_ofInt s rs1
    case rem => rw [remSigned_overflow hmin hneg]; rfl
  case wordByZero =>
    have hb : s.rW rs2 = 0 := (rW_eq_zero_iff s rs2).2 hzero
    refine ⟨writesX_of_finishW hxl rfl ?divuw, writesX_of_finishW hxl rfl ?remuw,
      writesX_of_finishW (z := -1) hxl rfl ?divw, writesX_of_finishW hxl rfl ?remw⟩
    case divuw => rw [hb, divUnsigned_zero]; rfl
    case remuw => rw [hb, remUnsigned_zero, rW_eq_ofInt]
    case divw => rw [hb, divSigned_zero]; rfl
    case remw => rw [hb, remSigned_zero, rW_eq_ofInt]
  case wordOverflow =>
    rw [← rW_toInt_eq_low32] at hmin hneg
    refine ⟨writesX_of_finishW (z := -2 ^ 31) hxl rfl ?divw, ?remw⟩
    case divw => rw [divSigned_overflow hmin hneg, ← hmin, BitVec.ofInt_toInt]
    case remw =>
      have hzero : s.ofInt (low32 0) = 0 := congrArg Int.toNat (Int.zero_emod _)
      rw [← hzero]
      exact writesX_of_finishW hxl rfl (remSigned_overflow hmin hneg)

/-- Settles O30: with a divisor other than zero each function is the quotient or remainder of its operands as integers. -/
theorem divisionQuotientAndRemainder : Obligations.DivisionQuotientAndRemainder := by
  intro s rd rs1 rs2 a b ua ub
  refine ⟨fun hne => ?full, fun hxl hne => ?word⟩
  case full =>
    have hb : s.rX rs2 ≠ 0 := (rX_eq_zero_iff s rs2).not.2 hne
    refine ⟨writesX_of_ofInt rfl (divSigned_of_ne_zero _ hb), writesX_of_ofInt rfl (remSigned_of_ne_zero _ hb),
      writesX_of_ofNat (congrArg (s.finishX rd) (divUnsigned_of_ne_zero _ hb)) ?divu,
      writesX_of_ofNat (congrArg (s.finishX rd) (remUnsigned_of_ne_zero _ hb)) ?remu⟩
    case divu => exact (Nat.div_le_self _ _).trans_lt (xNat_lt_span s rs1)
    case remu => exact (Nat.mod_le _ _).trans_lt (xNat_lt_span s rs1)
  case word =>
    have hb : s.rW rs2 ≠ 0 := (rW_eq_zero_iff s rs2).not.2 hne
    refine ⟨writesX_of_finishW hxl rfl ?divw, writesX_of_finishW hxl rfl ?remw,
      writesX_of_finishW hxl rfl ?divuw, writesX_of_finishW hxl rfl ?remuw⟩
    case divw => rw [divSigned_of_ne_zero _ hb, rW_toInt_eq_low32, rW_toInt_eq_low32]
    case remw => rw [remSigned_of_ne_zero _ hb, rW_toInt_eq_low32, rW_toInt_eq_low32]
    case divuw => rw [divUnsigned_of_ne_zero _ hb, rW_toNat, rW_toNat, BitVec.ofInt_natCast]
    case remuw => rw [remUnsigned_of_ne_zero _ hb, rW_toNat, rW_toNat, BitVec.ofInt_natCast]

end Sys2Proof.Proofs

/-!
# The atomic instructions (R225 to R239, R251 to R261)

First the blocks that an LR reserves, as numbers, then how a meaning that ends in an LR, an SC or an AMO completes where
its bytes exist, then the results of the AMO operations as numbers, for words and doublewords alike, then the statements of
44_rv32a.md about single instructions.
-/
namespace Sys2Proof.Proofs

open Sys2Proof.Machine Sys2Proof.Laws

/-! ### Reserved blocks (R227) -/

section Blocks

/-- Clearing the low bits rounds down to a multiple of a power of two. -/
theorem and_not_mask_toNat {w : Nat} (a : BitVec w) (k : Nat) :
    (a &&& ~~~BitVec.ofNat w (2 ^ k - 1)).toNat = a.toNat / 2 ^ k * 2 ^ k := by
  have hshift : a &&& ~~~BitVec.ofNat w (2 ^ k - 1) = a >>> k <<< k := by
    ext j hj
    have hmask : (BitVec.ofNat w (2 ^ k - 1))[j] = decide (j < k) := by
      simp [← BitVec.getLsbD_eq_getElem, BitVec.getLsbD_ofNat, Nat.testBit_two_pow_sub_one, hj]
    by_cases hk : j < k
    · simp [hmask, hk]
    · have hsum : k + (j - k) = j := by omega
      simp [hmask, hk, hsum, BitVec.getLsbD_eq_getElem hj]
  have hle : a.toNat / 2 ^ k * 2 ^ k < 2 ^ w := (Nat.div_mul_le_self _ _).trans_lt a.isLt
  rw [hshift, shiftLeft_toNat, ushiftRight_toNat, Nat.mod_eq_of_lt hle]

/-- A block that an LR reserves is of a power of two bytes, a multiple of the bytes the LR reads (R227 (a)). -/
theorem max_granule {c : Config} (hg : c.granuleOk = true) {n j : Nat} (hn : n = 2 ^ j) :
    (∃ k, max c.resGranule n = 2 ^ k) ∧ n ∣ max c.resGranule n := by
  simp only [Config.granuleOk, Bool.and_eq_true, decide_eq_true_eq] at hg
  obtain ⟨hpow, -⟩ := hg
  have hmax : max c.resGranule n = 2 ^ max c.resGranule.log2 j := by
    rw [hpow, hn, Nat.log2_two_pow]
    exact ((pow_right_mono₀ one_le_two).map_max).symm
  refine ⟨⟨_, hmax⟩, ?_⟩
  rw [hmax, hn]
  exact Nat.pow_dvd_pow 2 (le_max_right _ _)

variable {s : State}

/-- An LR reserves the aligned block around its address (R227 (a)). -/
theorem reservationAt_eq (hg : s.cfg.granuleOk = true) (a : BitVec s.cfg.xlen.bits) {n j : Nat} (hn : n = 2 ^ j) :
    s.reservationAt a n = ⟨BitVec.ofNat 64 (a.toNat / max s.cfg.resGranule n * max s.cfg.resGranule n),
      max s.cfg.resGranule n⟩ := by
  obtain ⟨⟨k, hk⟩, -⟩ := max_granule hg hn
  rw [State.reservationAt, hk, ← and_not_mask_toNat, BitVec.ofNat_toNat]

/-- An aligned access lies within the aligned block of a multiple of its size. -/
theorem aligned_le_block {a n G : Nat} (ha : a % n = 0) (hG : n ∣ G) (hpos : 0 < G) :
    a / G * G ≤ a ∧ a + n ≤ a / G * G + G := by
  have hdiv := Nat.div_add_mod' a G
  have hmod : n ∣ a % G := (Nat.dvd_mod_iff hG).2 (Nat.dvd_of_mod_eq_zero ha)
  have hgap : n ≤ G - a % G := Nat.le_of_dvd (Nat.sub_pos_of_lt (Nat.mod_lt a hpos)) (Nat.dvd_sub hG hmod)
  have hlt := Nat.mod_lt a hpos
  omega

/-- The block that an LR reserves contains the bytes it reads (R227 (a), (e)). -/
theorem reservationAt_covers (hg : s.cfg.granuleOk = true) {a : BitVec s.cfg.xlen.bits} {n j : Nat} (hn : n = 2 ^ j)
    (ha : a.toNat % n = 0) :
    (s.reservationAt a n).base.toNat ≤ a.toNat ∧
      a.toNat + n ≤ (s.reservationAt a n).base.toNat + (s.reservationAt a n).size := by
  obtain ⟨⟨k, hk⟩, hdvd⟩ := max_granule hg hn
  have hblock := aligned_le_block ha hdvd (hk ▸ Nat.two_pow_pos k)
  have hbits : 2 ^ s.cfg.xlen.bits ≤ 2 ^ 64 := by cases s.cfg.xlen <;> decide
  have hlt := hblock.1.trans_lt (a.isLt.trans_le hbits)
  rwa [reservationAt_eq hg a hn, BitVec.toNat_ofNat, Nat.mod_eq_of_lt hlt]

/-- The model's test of R227 (e) decides whether the reservation holds. -/
theorem reserved_iff_holds {w : Nat} (a : BitVec w) (n : Nat) : s.reserved a n = true ↔ s.holds a n := by
  unfold State.reserved State.holds
  cases s.reservation <;> simp

end Blocks

/-! ### How an atomic access completes where its bytes exist (R385) -/

section Atomics

variable {s : State} {i : Instr} {rd : XReg} {n : Nat}

/-- An aligned access to bytes that exist raises nothing. -/
theorem accessExc_of_accessible {w : Nat} {a : BitVec w} (h : s.accessible a n) (k : Access) :
    s.accessExc k true a n = none := by
  obtain ⟨haligned, hmapped⟩ := h
  exact accessExc_eq_none.2 ⟨.inl haligned, hmapped⟩

theorem loadReserved_of_accessible {w : Nat} {a : BitVec w} (h : s.accessible a n) (rd : XReg) :
    loadReserved s rd a n = ({ s with reservation := some (s.reservationAt a n) } : State).finishX rd
      ((s.memRead a n).signExtend s.cfg.xlen.bits) := by
  rw [loadReserved, accessExc_of_accessible h]

theorem storeConditional_of_not_holds {w k : Nat} {a : BitVec w} (h : s.accessible a n) (hh : ¬s.holds a n) (rd : XReg)
    (v : BitVec k) :
    storeConditional s rd a n v = ({ s with reservation := none } : State).finishX rd (1 : DWord) := by
  rw [storeConditional, accessExc_of_accessible h]
  exact if_neg ((reserved_iff_holds a n).not.2 hh)

theorem storeConditional_of_holds {w k : Nat} {a : BitVec w} (h : s.accessible a n) (hh : s.holds a n) (rd : XReg)
    (v : BitVec k) :
    storeConditional s rd a n v =
      if Config.scFails s.scDraws = true then
        ({ s with reservation := none, scDraws := s.scDraws + 1 } : State).finishX rd (1 : DWord)
      else (({ s with reservation := none, scDraws := s.scDraws + 1 } : State).memWrite a n v).finishX rd (0 : DWord) := by
  rw [storeConditional, accessExc_of_accessible h]
  exact if_pos ((reserved_iff_holds a n).2 hh)

theorem amo_of_accessible {w : Nat} {a : BitVec w} (h : s.accessible a n) (rd : XReg)
    (op : BitVec (8 * n) → BitVec (8 * n) → BitVec (8 * n)) (v : BitVec (8 * n)) :
    amo s rd a n op v =
      (s.memWrite a n (op (s.memRead a n) v)).finishX rd ((s.memRead a n).signExtend s.cfg.xlen.bits) := by
  rw [amo, accessExc_of_accessible h]

/-- Storing bytes, writing an integer register and advancing changes nothing else. -/
theorem frame_memWrite_wX_advance (s : State) {w k m : Nat} (a : BitVec w) (n : Nat) (v : BitVec k) (rd : XReg)
    (u : BitVec m) : Frame s ((s.memWrite a n v).wX rd u).advance (some rd) none (byteAddrs a n) := by
  obtain ⟨hcfg, hstatus, hdraws, hx, hf, -⟩ := frame_wX_setPc (s.memWrite a n v) rd u _
  obtain ⟨-, -, -, -, -, hbytes⟩ := frame_memWrite_advance s a n v
  exact ⟨hcfg, hstatus, hdraws, hx, hf, hbytes⟩

/-- What a register write and the advance leave in the register. -/
theorem xNat_wX_advance_same (s : State) (rd : XReg) {m : Nat} (v : BitVec m) :
    ((s.wX rd v).advance).xNat rd = if rd = 0 then 0 else v.toNat % s.span :=
  (rX_toNat_congr rfl rfl rd).trans (xNat_wX_same s rd v)

/-- The value that an atomic load leaves in the register: the bytes read, sign-extended (R225, R229, R251). -/
theorem memRead_signExtend_toNat (s : State) {w : Nat} (a : BitVec w) (n : Nat) :
    ((s.memRead a n).signExtend s.cfg.xlen.bits).toNat % s.span =
      s.ofInt (signedBytes n (s.bytesNat (byteAddrs a n))) := by
  rw [memRead_signExtend, State.span, Nat.mod_eq_of_lt (BitVec.isLt _), toNat_ofInt_span]

/-- An LR completes where its bytes exist (R227 (a), R229, R251). -/
theorem reservesAt_of_loadReserved {a : BitVec s.cfg.xlen.bits} {j : Nat} (hexec : exec i s = loadReserved s rd a n)
    (hg : s.cfg.granuleOk = true) (hn : n = 2 ^ j) (hacc : s.accessible a n) : ReservesAt s i rd a n := by
  refine ⟨_, hexec.trans (loadReserved_of_accessible hacc rd), ?_, congrArg some (reservationAt_eq hg a hn), rfl,
    advance_toNat _, rfl, frame_wX_setPc _ rd _ _⟩
  rw [xNat_wX_advance_same, ← memRead_signExtend_toNat]
  rfl

/-- One is a value of every register. -/
theorem one_mod_span (s : State) : 1 % s.span = 1 := by
  unfold State.span
  cases s.cfg.xlen <;> decide

/-- An SC without a reservation of its bytes fails (R227 (e), R230). -/
theorem scEnds_of_not_holds {w k : Nat} {a : BitVec w} {v : BitVec k} (hexec : exec i s = storeConditional s rd a n v)
    (hacc : s.accessible a n) (hh : ¬s.holds a n) : ScEnds s i rd (byteAddrs a n) v.toNat false 0 := by
  refine ⟨_, hexec.trans (storeConditional_of_not_holds hacc hh rd v), ?_, nofun, rfl, rfl, advance_toNat _, rfl,
    frame_wX_setPc _ rd _ _⟩
  simp [xNat_wX_advance_same, one_mod_span]

/-- An SC with a reservation of its bytes stores unless its draw fails it (R227 (e), (f), R230). -/
theorem scEnds_of_holds {k : Nat} {a : BitVec s.cfg.xlen.bits} {v : BitVec k}
    (hexec : exec i s = storeConditional s rd a n v) (hm : Memory.wf s.mem = true) (hn : n ≤ 8)
    (hacc : s.accessible a n) (hh : s.holds a n) :
    ScEnds s i rd (byteAddrs a n) v.toNat (!Config.scFails s.scDraws) 1 := by
  rw [storeConditional_of_holds hacc hh] at hexec
  cases hfails : Config.scFails s.scDraws with
  | true =>
    rw [if_pos hfails] at hexec
    refine ⟨_, hexec, ?_, nofun, rfl, rfl, advance_toNat _, rfl, frame_wX_setPc _ rd _ _⟩
    simp [xNat_wX_advance_same, one_mod_span]
  | false =>
    rw [if_neg (by simp [hfails])] at hexec
    refine ⟨_, hexec, ?_, fun _ => ?_, rfl, rfl, advance_toNat _, rfl, frame_memWrite_wX_advance _ a n v rd _⟩
    · simp [xNat_wX_advance_same]
    · rw [byteAddrs_length]
      exact bytesNat_memWrite { s with reservation := none, scDraws := s.scDraws + 1 } hm a (le_span_of_le_eight _ hn) v

end Atomics

/-! ### The results of the AMO operations as numbers (R231 to R239, R253 to R261) -/

section AmoResults

/-- `AmoComputes n op f`: the operation `op` on `n`-byte values is `f` on their numbers, modulo 256^n. -/
def AmoComputes (n : Nat) (op : BitVec (8 * n) → BitVec (8 * n) → BitVec (8 * n)) (f : Nat → Nat → Nat) : Prop :=
  ∀ old v, (op old v).toNat = f old.toNat v.toNat % 256 ^ n

variable {n : Nat}

theorem toNat_mod_bytes (x : BitVec (8 * n)) : x.toNat % 256 ^ n = x.toNat :=
  Nat.mod_eq_of_lt (Nat.pow_mul 2 8 n ▸ x.isLt)

/-- The signed value of an `n`-byte pattern. -/
theorem toInt_eq_signedBytes (x : BitVec (8 * n)) : x.toInt = signedBytes n x.toNat := by
  rw [BitVec.toInt_eq_toNat_bmod, signedBytes, Nat.pow_mul]

/-- An operation that gives the number itself needs no reduction. -/
theorem amoComputes_of_toNat {op : BitVec (8 * n) → BitVec (8 * n) → BitVec (8 * n)} {f : Nat → Nat → Nat}
    (h : ∀ old v, (op old v).toNat = f old.toNat v.toNat) : AmoComputes n op f :=
  fun old v => (toNat_mod_bytes _).symm.trans (congrArg (· % 256 ^ n) (h old v))

theorem amoComputes_swap : AmoComputes n (fun _ v => v) fun _ v => v := amoComputes_of_toNat fun _ _ => rfl

theorem amoComputes_add : AmoComputes n (fun old v => old + v) fun o v => o + v := fun old v => by
  rw [BitVec.toNat_add, Nat.pow_mul]

theorem amoComputes_xor : AmoComputes n (fun old v => old ^^^ v) fun o v => o ^^^ v :=
  amoComputes_of_toNat BitVec.toNat_xor

theorem amoComputes_or : AmoComputes n (fun old v => old ||| v) fun o v => o ||| v :=
  amoComputes_of_toNat BitVec.toNat_or

theorem amoComputes_and : AmoComputes n (fun old v => old &&& v) fun o v => o &&& v :=
  amoComputes_of_toNat BitVec.toNat_and

/-- Choosing one of two values by a test on their numbers. -/
theorem toNat_ite_congr {w : Nat} {c : Bool} {p : Prop} [Decidable p] (hc : c = true ↔ p) (x y : BitVec w) :
    (if c = true then x else y).toNat = if p then x.toNat else y.toNat := by
  rw [apply_ite BitVec.toNat, if_congr hc rfl rfl]

theorem slt_iff_signedBytes_lt (x y : BitVec (8 * n)) :
    x.slt y = true ↔ signedBytes n x.toNat < signedBytes n y.toNat := by
  rw [BitVec.slt_iff_toInt_lt, toInt_eq_signedBytes, toInt_eq_signedBytes]

theorem amoComputes_min : AmoComputes n (fun old v => if old.slt v then old else v)
    fun o v => if signedBytes n o < signedBytes n v then o else v :=
  amoComputes_of_toNat fun old v => toNat_ite_congr (slt_iff_signedBytes_lt old v) old v

theorem amoComputes_max : AmoComputes n (fun old v => if v.slt old then old else v)
    fun o v => if signedBytes n v < signedBytes n o then o else v :=
  amoComputes_of_toNat fun old v => toNat_ite_congr (slt_iff_signedBytes_lt v old) old v

theorem amoComputes_minu : AmoComputes n (fun old v => if old.ult v then old else v)
    fun o v => if o < v then o else v :=
  amoComputes_of_toNat fun old v => toNat_ite_congr BitVec.ult_iff_toNat_lt old v

theorem amoComputes_maxu : AmoComputes n (fun old v => if v.ult old then old else v)
    fun o v => if v < o then o else v :=
  amoComputes_of_toNat fun old v => toNat_ite_congr BitVec.ult_iff_toNat_lt old v

/-- An AMO completes where its bytes exist (R225). -/
theorem AmoComputes.updatesAt {op : BitVec (8 * n) → BitVec (8 * n) → BitVec (8 * n)} {f : Nat → Nat → Nat}
    (hop : AmoComputes n op f) {s : State} {i : Instr} {rd : XReg} {a : BitVec s.cfg.xlen.bits} {v : BitVec (8 * n)}
    {m : Nat} (hexec : exec i s = amo s rd a n op v) (hv : v.toNat = m) (hm : Memory.wf s.mem = true) (hn : n ≤ 8)
    (hacc : s.accessible a n) :
    UpdatesAt s i (byteAddrs a n) rd (s.ofInt (signedBytes n (s.bytesNat (byteAddrs a n))))
      (f (s.bytesNat (byteAddrs a n)) m) := by
  refine ⟨_, hexec.trans (amo_of_accessible hacc rd op v), ?_, ?_, advance_toNat _, rfl, ⟨rfl, rfl⟩,
    frame_memWrite_wX_advance s a n _ rd _⟩
  · have hread := bytesNat_memWrite s hm a (le_span_of_le_eight _ hn) (op (s.memRead a n) v)
    rw [hop, memRead_toNat, hv, Nat.mod_mod] at hread
    rwa [byteAddrs_length]
  · rw [xNat_wX_advance_same, ← memRead_signExtend_toNat]
    rfl

end AmoResults

/-! ### The obligations of 44_rv32a.md about single instructions -/

/-- Settles O31: both widths are the shared LR, of four and of eight bytes. -/
theorem loadReservedReadsAndReserves : Obligations.LoadReservedReadsAndReserves := fun _ _ _ _ _ hg =>
  ⟨reservesAt_of_loadReserved (j := 2) rfl hg rfl,
    fun hxl => reservesAt_of_loadReserved (j := 3) (onRv64_of_rv64 hxl _ _) hg rfl⟩

/-- Settles O32: both widths are the shared SC, of four and of eight bytes. -/
theorem storeConditionalOutcomes : Obligations.StoreConditionalOutcomes := fun _ _ _ _ _ _ hm =>
  ⟨scEnds_of_not_holds rfl, scEnds_of_holds rfl hm (by decide),
    fun hxl => scEnds_of_not_holds (onRv64_of_rv64 hxl _ _),
    fun hxl => scEnds_of_holds (onRv64_of_rv64 hxl _ _) hm le_rfl⟩

/-- Settles O34: the nine are the shared AMO of four bytes with nine operations. -/
theorem atomicWordUpdates : Obligations.AtomicWordUpdates := by
  intro s rd rs2 rs1 aq rl hm hacc as o v old
  have hv : (s.rW rs2).toNat = v := rW_toNat s rs2
  have hn : 4 ≤ 8 := by decide
  exact ⟨amoComputes_swap.updatesAt rfl hv hm hn hacc, amoComputes_add.updatesAt rfl hv hm hn hacc,
    amoComputes_xor.updatesAt rfl hv hm hn hacc, amoComputes_or.updatesAt rfl hv hm hn hacc,
    amoComputes_and.updatesAt rfl hv hm hn hacc, amoComputes_min.updatesAt rfl hv hm hn hacc,
    amoComputes_max.updatesAt rfl hv hm hn hacc, amoComputes_minu.updatesAt rfl hv hm hn hacc,
    amoComputes_maxu.updatesAt rfl hv hm hn hacc⟩

end Sys2Proof.Proofs

/-!
# Progress of LR/SC on one hart (R227 to R230, R426)

First a retry by rounds of LR and SC, which needs that a round keeps its operands and takes one draw. Then the runs of a
constrained loop: what a step of such a run executes, that its pc moves forward from one LR to the next, and so that every SC
after an LR of the loop finds the reservation and takes a draw.
-/
namespace Sys2Proof.Proofs

open Sys2Proof.Machine Sys2Proof.Laws

/-! ### What every instruction keeps of the parameters and of memory (R32, R33) -/

section Keeps

variable {i : Instr} {s t u : State}

theorem Updates.memory_wf (h : Updates i s u) (hm : Memory.wf s.mem = true) : Memory.wf u.mem = true := by
  induction h with
  | nothing => exact hm
  | store _ _ a n v _ ih => exact memWrite_wf _ a n v ih
  | writeX _ _ _ ih | writeF _ _ _ ih | orFlags _ _ _ ih | reserve _ _ _ _ _ ih | fenceFetch _ _ ih => exact ih

/-- An instruction keeps the parameters of the run, and memory in canonical form. -/
theorem exec_keeps (h : exec i s = .next t) : t.cfg = s.cfg ∧ (Memory.wf s.mem = true → Memory.wf t.mem = true) := by
  obtain ⟨u, hu, pc, status, rfl⟩ := (exec_outcome h).exists_updates
  obtain ⟨hcfg, -, -, -⟩ := hu.keeps
  exact ⟨hcfg, hu.memory_wf⟩

/-- A step keeps the parameters of the run, and memory in canonical form. -/
theorem step_keeps (h : step s = .next t) : t.cfg = s.cfg ∧ (Memory.wf s.mem = true → Memory.wf t.mem = true) := by
  obtain ⟨-, rfl | ⟨draws, ⟨i, hexec⟩ | ⟨e, v, rfl⟩⟩⟩ := step_cases h
  · exact ⟨rfl, id⟩
  · have hkeeps := exec_keeps hexec
    exact hkeeps
  · exact ⟨rfl, id⟩

end Keeps

/-! ### A retry by rounds of LR.W and SC.W -/

/-- `KeepsOperands rs1 rs2 s t`: from `s` to `t` the parameters, the status and the two registers stay, and memory stays in
canonical form. -/
structure KeepsOperands (rs1 rs2 : XReg) (s t : State) : Prop where
  /-- The parameters stay. -/
  cfg : t.cfg = s.cfg
  /-- The status stays. -/
  status : t.status = s.status
  /-- The address register stays. -/
  address : t.xNat rs1 = s.xNat rs1
  /-- The data register stays. -/
  data : t.xNat rs2 = s.xNat rs2
  /-- Memory stays in canonical form. -/
  memory : Memory.wf s.mem = true → Memory.wf t.mem = true

section Retry

variable {s t u : State} {rd rd' rs1 rs2 : XReg}

/-- An instruction that writes another register keeps the operands. -/
theorem keepsOperands_of_frame {i : Instr} {as : List Nat} (hexec : exec i s = .next t)
    (hframe : Frame s t (some rd) none as) (h1 : rd ≠ rs1) (h2 : rd ≠ rs2) : KeepsOperands rs1 rs2 s t := by
  obtain ⟨hcfg, hstatus, -, hx, -, -⟩ := hframe
  exact ⟨hcfg, hstatus, hx rs1 (by simpa using h1.symm), hx rs2 (by simpa using h2.symm), (exec_keeps hexec).2⟩

theorem KeepsOperands.trans (h : KeepsOperands rs1 rs2 s t) (h' : KeepsOperands rs1 rs2 t u) :
    KeepsOperands rs1 rs2 s u :=
  ⟨h'.cfg.trans h.cfg, h'.status.trans h.status, h'.address.trans h.address, h'.data.trans h.data,
    fun hm => h'.memory (h.memory hm)⟩

theorem KeepsOperands.byteAddrs_eq (h : KeepsOperands rs1 rs2 s t) (n : Nat) :
    byteAddrs (t.rX rs1) n = byteAddrs (s.rX rs1) n := by
  have haddr : (t.rX rs1).toNat = (s.rX rs1).toNat := h.address
  rw [Proofs.byteAddrs_eq, Proofs.byteAddrs_eq, haddr, h.cfg]

theorem KeepsOperands.accessible (h : KeepsOperands rs1 rs2 s t) {n : Nat} (hacc : s.accessible (s.rX rs1) n) :
    t.accessible (t.rX rs1) n := by
  obtain ⟨haligned, hmapped⟩ := hacc
  refine ⟨(congrArg (· % n) h.address).trans haligned, ?_⟩
  rw [h.byteAddrs_eq, h.cfg]
  exact hmapped

/-- One round takes one draw, keeps the operands, and stores unless the draw fails it (R227, R229, R230). -/
theorem exists_lrScRound (hg : s.cfg.granuleOk = true) (hm : Memory.wf s.mem = true) (hacc : s.accessible (s.rX rs1) 4)
    (h1 : rd ≠ rs1) (h2 : rd ≠ rs2) (h1' : rd' ≠ rs1) (h2' : rd' ≠ rs2) :
    ∃ t, lrScRound rd rd' rs1 rs2 s = .next t ∧ KeepsOperands rs1 rs2 s t ∧ t.scDraws = s.scDraws + 1 ∧
      (Config.scFails s.scDraws = false →
        t.xNat rd' = 0 ∧ t.bytesNat (byteAddrs (s.rX rs1) 4) = s.xNat rs2 % 2 ^ 32) := by
  obtain ⟨u, hlr, -, hres, hlrDraws, -, -, hlrFrame⟩ := (loadReservedReadsAndReserves s rd rs1 false false hg).1 hacc
  have hsu : KeepsOperands rs1 rs2 s u := keepsOperands_of_frame hlr hlrFrame h1 h2
  have hholds : u.holds (u.rX rs1) 4 := by
    obtain ⟨haligned, -⟩ := hacc
    rw [← reservationAt_eq hg (s.rX rs1) (n := 4) (j := 2) rfl] at hres
    have hcovers := reservationAt_covers hg (n := 4) (j := 2) rfl haligned
    have haddr : (u.rX rs1).toNat = (s.rX rs1).toNat := hsu.address
    exact ⟨_, hres, by rwa [haddr]⟩
  obtain ⟨t, hsc, hrd, hbytes, -, hscDraws, -, -, hscFrame⟩ :=
    (storeConditionalOutcomes u rd' rs2 rs1 false false (hsu.memory hm)).2.1 (hsu.accessible hacc) hholds
  have hut : KeepsOperands rs1 rs2 u t := keepsOperands_of_frame hsc hscFrame h1' h2'
  refine ⟨t, ?_, hsu.trans hut, by rw [hscDraws, hlrDraws], fun hdraw => ?_⟩
  · rw [lrScRound, hlr]
    exact hsc
  · rw [hlrDraws, hdraw] at hrd hbytes
    refine ⟨by simpa using hrd, ?_⟩
    rw [← hsu.byteAddrs_eq, hbytes rfl, hsu.data, byteAddrs_length]
    rfl

/-- When the draw number `d` from now does not fail, a retry succeeds within `d + 1` rounds. -/
theorem exists_lrScRounds {d : Nat} (hdraw : Config.scFails (s.scDraws + d) = false) (hg : s.cfg.granuleOk = true)
    (hm : Memory.wf s.mem = true) (hacc : s.accessible (s.rX rs1) 4)
    (h1 : rd ≠ rs1) (h2 : rd ≠ rs2) (h1' : rd' ≠ rs1) (h2' : rd' ≠ rs2) :
    ∃ n t, lrScRounds rd rd' rs1 rs2 n s = .next t ∧ t.xNat rd' = 0 ∧ t.status = s.status ∧
      t.bytesNat (byteAddrs (s.rX rs1) 4) = s.xNat rs2 % 2 ^ 32 := by
  induction d generalizing s with
  | zero =>
    obtain ⟨t, hround, hkeeps, -, hstores⟩ := exists_lrScRound hg hm hacc h1 h2 h1' h2'
    obtain ⟨hrd, hbytes⟩ := hstores hdraw
    exact ⟨0, t, hround, hrd, hkeeps.status, hbytes⟩
  | succ d ih =>
    obtain ⟨u, hround, hkeeps, hdraws, -⟩ := exists_lrScRound hg hm hacc h1 h2 h1' h2'
    have hnext : u.scDraws + d = s.scDraws + (d + 1) := by omega
    obtain ⟨n, t, hrounds, hrd, hstatus, hbytes⟩ :=
      ih (hnext ▸ hdraw) (hkeeps.cfg ▸ hg) (hkeeps.memory hm) (hkeeps.accessible hacc)
    rw [hkeeps.byteAddrs_eq, hkeeps.data] at hbytes
    refine ⟨n + 1, t, ?_, hrd, hstatus.trans hkeeps.status, hbytes⟩
    rw [lrScRounds, hround]
    exact hrounds

end Retry

/-! ### What a completed step executes (R11) -/

section CompletedStep

variable {i : Instr} {s t : State} {n : Nat}

theorem runBytes_of_decoded (hi : s.decoded = some i) (draws : Nat) :
    runBytes { s with fetchDraws := draws } s.fetch.1 = exec i { s with fetchDraws := draws } := by
  unfold State.decoded at hi
  unfold runBytes
  cases hdec : decodeBytes s.cfg.xlen s.fetch.1 with
  | ok d =>
    rw [hdec] at hi
    cases hi
    rfl
  | error e =>
    rw [hdec] at hi
    cases hi

/-- A step after which the hart still runs has executed the instruction that the fetched bytes spell. -/
theorem exec_of_step (h : step s = .next t) (hrun : t.status = .running) (hi : s.decoded = some i) :
    exec i { s with fetchDraws := s.fetch.2 } = .next t := by
  unfold step cycle at h
  split at h
  · cases h
  · cases h
  · split_ifs at h
    · cases h
      cases hrun
    · rwa [runBytes_of_decoded hi] at h
    · cases h
      cases hrun

/-- A trapped hart does not run. -/
theorem status_takeTrap_ne_running (s : State) (e : Exc) (v : DWord) : (s.takeTrap e v).status ≠ .running := nofun

/-- A 64-bit instruction that does not trap is at XLEN = 64. -/
theorem onRv64_of_running {k : Res} (h : onRv64 s i k = .next t) (hrun : t.status = .running) : k = .next t := by
  obtain ⟨-, hk⟩ | ⟨-, rfl⟩ := onRv64_cases h
  · exact hk
  · exact absurd hrun (status_takeTrap_ne_running _ _ _)

/-- An LR is LR.W or LR.D (R229, R251). -/
theorem isLR_cases (hi : i.isLR n) :
    ∃ rd rs1 aq rl, (i = .lrW rd rs1 aq rl ∧ n = 4) ∨ (i = .lrD rd rs1 aq rl ∧ n = 8) := by
  obtain ⟨htouch, rs1, hacc⟩ := hi
  cases i with
  | lrW rd rs1 aq rl =>
    cases hacc
    exact ⟨rd, rs1, aq, rl, .inl ⟨rfl, rfl⟩⟩
  | lrD rd rs1 aq rl =>
    cases hacc
    exact ⟨rd, rs1, aq, rl, .inr ⟨rfl, rfl⟩⟩
  | scW | scD => cases hacc
  | _ => cases htouch

/-- An SC is SC.W or SC.D (R230, R252). -/
theorem isSC_cases (hi : i.isSC n) :
    ∃ rd rs2 rs1 aq rl, (i = .scW rd rs2 rs1 aq rl ∧ n = 4) ∨ (i = .scD rd rs2 rs1 aq rl ∧ n = 8) := by
  obtain ⟨htouch, rs1, hacc⟩ := hi
  cases i with
  | scW rd rs2 rs1 aq rl =>
    cases hacc
    exact ⟨rd, rs2, rs1, aq, rl, .inl ⟨rfl, rfl⟩⟩
  | scD rd rs2 rs1 aq rl =>
    cases hacc
    exact ⟨rd, rs2, rs1, aq, rl, .inr ⟨rfl, rfl⟩⟩
  | lrW | lrD => cases hacc
  | _ => cases htouch

/-- LR and SC are no control transfers. -/
theorem transfersControl_of_touchesReservation (hi : i.touchesReservation = true) : i.transfersControl = false := by
  cases i with
  | lrW | lrD | scW | scD => rfl
  | _ => cases hi

/-- The address of an atomic access is its base register. -/
theorem accessAddr_of_atomic (hi : s.decoded = some i) {k : Access} {rs1 : XReg}
    (hacc : i.access = some (k, true, n, rs1, 0)) : s.accessAddr = some (s.xNat rs1) := by
  have hzero : s.ofInt (s.xInt rs1 + (0 : BitVec 12).toInt) = s.xNat rs1 := by
    have hoffset : (0 : BitVec 12).toInt = 0 := rfl
    rw [hoffset, Int.add_zero, ← toNat_ofInt_span, ← rX_eq_ofInt]
    rfl
  rw [State.accessAddr, hi, Option.bind_some, hacc, Option.map_some]
  exact congrArg some hzero

/-- An LR that does not trap reserves the block around its address, which contains the bytes it reads, and takes no draw
(R227 (a)). -/
theorem reserves_of_isLR (hLR : i.isLR n) (hg : s.cfg.granuleOk = true) (hexec : exec i s = .next t)
    (hrun : t.status = .running) :
    t.scDraws = s.scDraws ∧ ∃ rs1 q, i.access = some (.load, true, n, rs1, 0) ∧ t.reservation = some q ∧
      q.base.toNat ≤ s.xNat rs1 ∧ s.xNat rs1 + n ≤ q.base.toNat + q.size := by
  obtain ⟨rd, rs1, aq, rl, hwidth⟩ := isLR_cases hLR
  have hlr : i.access = some (.load, true, n, rs1, 0) ∧ (∃ j, n = 2 ^ j) ∧ loadReserved s rd (s.rX rs1) n = .next t := by
    obtain ⟨rfl, rfl⟩ | ⟨rfl, rfl⟩ := hwidth
    · exact ⟨rfl, ⟨2, rfl⟩, hexec⟩
    · exact ⟨rfl, ⟨3, rfl⟩, onRv64_of_running hexec hrun⟩
  obtain ⟨hacc, ⟨j, hn⟩, hload⟩ := hlr
  obtain ⟨hnone, rfl⟩ | ⟨e, -, rfl⟩ := loadReserved_cases hload
  · have haligned : (s.rX rs1).toNat % n = 0 := by simpa using (accessExc_eq_none.1 hnone).1
    exact ⟨rfl, rs1, _, hacc, rfl, reservationAt_covers hg hn haligned⟩
  · exact absurd hrun (status_takeTrap_ne_running _ _ _)

/-- An SC that does not trap takes a draw when its reservation holds, and with a draw that does not fail it stores
and reports success (R227 (e), (f), R230). -/
theorem stores_of_isSC (hSC : i.isSC n) (hm : Memory.wf s.mem = true) (hexec : exec i s = .next t)
    (hrun : t.status = .running) :
    ∃ rd rs2 rs1 aq rl, (i = .scW rd rs2 rs1 aq rl ∧ n = 4 ∨ i = .scD rd rs2 rs1 aq rl ∧ n = 8) ∧
      i.access = some (.store, true, n, rs1, 0) ∧
      (s.holds (s.rX rs1) n → t.scDraws = s.scDraws + 1) ∧
      (t.scDraws = s.scDraws + 1 → Config.scFails s.scDraws = false →
        t.xNat rd = 0 ∧ t.bytesNat (byteAddrs (s.rX rs1) n) = s.xNat rs2 % 256 ^ n) := by
  obtain ⟨rd, rs2, rs1, aq, rl, hwidth⟩ := isSC_cases hSC
  have hsc : i.access = some (.store, true, n, rs1, 0) ∧ n ≤ 8 ∧
      storeConditional s rd (s.rX rs1) n (s.rX rs2) = .next t := by
    obtain ⟨rfl, rfl⟩ | ⟨rfl, rfl⟩ := hwidth
    · exact ⟨rfl, by decide, hexec⟩
    · exact ⟨rfl, le_rfl, onRv64_of_running hexec hrun⟩
  obtain ⟨hacc, hn, hstore⟩ := hsc
  refine ⟨rd, rs2, rs1, aq, rl, hwidth, hacc, ?_⟩
  rw [← reserved_iff_holds]
  obtain ⟨-, -, -, rfl⟩ | ⟨-, -, hfails, rfl⟩ | ⟨-, hnone, rfl⟩ | ⟨e, -, rfl⟩ := storeConditional_cases hstore
  · refine ⟨fun _ => rfl, fun _ _ => ⟨by simp [xNat_wX_advance_same], ?_⟩⟩
    exact bytesNat_memWrite { s with reservation := none, scDraws := s.scDraws + 1 } hm (s.rX rs1)
      (le_span_of_le_eight _ hn) (s.rX rs2)
  · exact ⟨fun _ => rfl, fun _ hdraw => by simp [hfails] at hdraw⟩
  · exact ⟨fun hheld => by simp [hnone] at hheld, fun hdraws => by simp at hdraws⟩
  · exact absurd hrun (status_takeTrap_ne_running _ _ _)

/-- An admitted instruction of a constrained loop keeps the reservation and takes no draw. -/
theorem keepsReservation_of_allowedInLoop (hallowed : i.allowedInLoop = true) (hexec : exec i s = .next t) :
    KeepsReservation s t := by
  obtain ⟨u, hu, pc, status, rfl⟩ := (exec_outcome hexec).exists_updates
  obtain ⟨-, -, htouch⟩ := writes_of_allowedInLoop hallowed
  exact hu.keepsReservation htouch

end CompletedStep

/-! ### Runs of a constrained loop (R228, R426) -/

section Loop

variable {r : Nat → State} {l : LoopPlace} {n : Nat}

theorem isRun_running (h : IsRun r) (k : Nat) : (r k).status = .running := (step_cases (h k)).1

theorem isRun_cfg (h : IsRun r) (k : Nat) : (r k).cfg = (r 0).cfg := by
  induction k with
  | zero => rfl
  | succ k ih => exact (step_keeps (h k)).1.trans ih

theorem isRun_memory_wf (h : IsRun r) (hm : Memory.wf (r 0).mem = true) (k : Nat) : Memory.wf (r k).mem = true := by
  induction k with
  | zero => exact hm
  | succ k ih => exact (step_keeps (h k)).2 ih

/-- Step `k` of a run executes the instruction that its fetched bytes spell. -/
theorem isRun_exec (h : IsRun r) (k : Nat) {i : Instr} (hi : (r k).decoded = some i) :
    exec i { r k with fetchDraws := (r k).fetch.2 } = .next (r (k + 1)) :=
  exec_of_step (h k) (isRun_running h (k + 1)) hi

/-- The advance moves the pc four bytes on in the loop, which is far smaller than the address space. -/
theorem offset_advance {s t : State} (hcfg : t.cfg = s.cfg) (hpc : t.pc.toNat = (s.pc.toNat + 4) % s.span)
    (hlt : l.offset s < 64) : l.offset t = l.offset s + 4 := by
  have hspan : t.span = s.span := by rw [State.span, hcfg, State.span]
  have hsize : s.span = 2 ^ 32 ∨ s.span = 2 ^ 64 := by
    unfold State.span
    cases s.cfg.xlen
    · exact .inl rfl
    · exact .inr rfl
  rw [LoopPlace.offset, State.ofInt] at hlt ⊢
  rw [LoopPlace.offset, State.ofInt, hspan, hpc]
  obtain hsize | hsize := hsize <;> rw [hsize] at hlt ⊢ <;> omega

/-- An LR or SC of the run advances. -/
theorem offset_of_touchesReservation (h : RunsConstrainedLoop r l n) {k : Nat} {i : Instr}
    (hi : (r k).decoded = some i) (htouch : i.touchesReservation = true) :
    l.offset (r (k + 1)) = l.offset (r k) + 4 := by
  have hexec := isRun_exec h.isRun k hi
  have hkeeps := exec_keeps hexec
  have hpc := exec_pc_of_running (transfersControl_of_touchesReservation htouch) hexec
    (isRun_running h.isRun (k + 1))
  exact offset_advance hkeeps.1 hpc (h.inLoop k).1

/-- At the start of the loop stands its LR. -/
theorem loop_lr (h : RunsConstrainedLoop r l n) {k : Nat} (hk : l.offset (r k) = 0) :
    ∃ i, (r k).decoded = some i ∧ i.isLR n := by
  obtain ⟨-, i, hi, hkind⟩ := h.inLoop k
  rw [if_pos hk] at hkind
  exact ⟨i, hi, hkind⟩

/-- At the SC of the loop stands an SC. -/
theorem loop_sc (h : RunsConstrainedLoop r l n) {k : Nat} (hk : l.offset (r k) = l.sc) :
    ∃ i, (r k).decoded = some i ∧ i.isSC n := by
  obtain ⟨-, i, hi, hkind⟩ := h.inLoop k
  rw [if_neg (hk ▸ h.scAfterLr.ne'), if_pos hk] at hkind
  exact ⟨i, hi, hkind⟩

/-- Elsewhere stands an admitted instruction, which goes forward or back to the LR. -/
theorem loop_other (h : RunsConstrainedLoop r l n) {k : Nat} (h0 : l.offset (r k) ≠ 0) (hsc : l.offset (r k) ≠ l.sc) :
    (∃ i, (r k).decoded = some i ∧ i.allowedInLoop = true) ∧
      (l.offset (r (k + 1)) = 0 ∨ l.offset (r k) < l.offset (r (k + 1))) := by
  obtain ⟨-, i, hi, hkind⟩ := h.inLoop k
  rw [if_neg h0, if_neg hsc] at hkind
  obtain ⟨hallowed, hforward | ⟨-, -, hretry⟩⟩ := hkind
  · exact ⟨⟨i, hi, hallowed⟩, .inr hforward⟩
  · exact ⟨⟨i, hi, hallowed⟩, .inl hretry⟩

/-- An admitted instruction of the loop keeps the reservation and takes no draw. -/
theorem loop_other_keepsReservation (h : RunsConstrainedLoop r l n) {k : Nat} (h0 : l.offset (r k) ≠ 0)
    (hsc : l.offset (r k) ≠ l.sc) : KeepsReservation (r k) (r (k + 1)) := by
  obtain ⟨⟨i, hi, hallowed⟩, -⟩ := loop_other h h0 hsc
  have hkeeps := keepsReservation_of_allowedInLoop hallowed (isRun_exec h.isRun k hi)
  exact hkeeps

/-- Every step of the loop goes forward, or back to the LR. -/
theorem loop_forward (h : RunsConstrainedLoop r l n) (k : Nat) :
    l.offset (r (k + 1)) = 0 ∨ l.offset (r k) < l.offset (r (k + 1)) := by
  by_cases h0 : l.offset (r k) = 0
  · obtain ⟨i, hi, htouch, -⟩ := loop_lr h h0
    exact .inr (by rw [offset_of_touchesReservation h hi htouch]; omega)
  by_cases hsc : l.offset (r k) = l.sc
  · obtain ⟨i, hi, htouch, -⟩ := loop_sc h hsc
    exact .inr (by rw [offset_of_touchesReservation h hi htouch]; omega)
  exact (loop_other h h0 hsc).2

/-- As long as the run does not come to the LR it goes forward. -/
theorem offset_lt_of_no_lr (h : RunsConstrainedLoop r l n) {j k : Nat} (hjk : j < k)
    (hlr : ∀ m, j < m → m ≤ k → l.offset (r m) ≠ 0) : l.offset (r j) < l.offset (r k) := by
  induction k, hjk using Nat.le_induction with
  | base => exact (loop_forward h j).resolve_left (hlr (j + 1) (by omega) le_rfl)
  | succ k hjk ih =>
    exact (ih fun m hj hm => hlr m hj (by omega)).trans
      ((loop_forward h k).resolve_left (hlr (k + 1) (by omega) le_rfl))

/-- Between two executions of the SC the run comes to the LR: there is a latest LR before the second one. -/
theorem exists_latest_lr (h : RunsConstrainedLoop r l n) {k₁ k₂ : Nat} (hlt : k₁ < k₂)
    (h₁ : l.offset (r k₁) = l.sc) (h₂ : l.offset (r k₂) = l.sc) :
    ∃ j, j < k₂ ∧ l.offset (r j) = 0 ∧ ∀ m, j < m → m < k₂ → l.offset (r m) ≠ 0 := by
  have hne : l.offset (r k₂) ≠ 0 := h₂ ▸ h.scAfterLr.ne'
  have hsome : ∃ m, m < k₂ ∧ l.offset (r m) = 0 := by
    by_contra hnone
    push Not at hnone
    have hforward := offset_lt_of_no_lr h hlt fun m _ hm => by
      obtain hm | rfl := hm.lt_or_eq
      · exact hnone m hm
      · exact hne
    omega
  obtain ⟨m, hm, hm0⟩ := hsome
  have hbound : m ≤ k₂ - 1 := by omega
  have hlast := Nat.findGreatest_le (P := fun m => l.offset (r m) = 0) (k₂ - 1)
  refine ⟨Nat.findGreatest (fun m => l.offset (r m) = 0) (k₂ - 1), by omega,
    Nat.findGreatest_spec (P := fun m => l.offset (r m) = 0) hbound hm0, fun m hj hm => ?_⟩
  exact Nat.findGreatest_is_greatest (P := fun m => l.offset (r m) = 0) hj (by omega)

/-- From the latest LR to the SC the reservation stays as the LR made it. -/
theorem reservation_until_sc (h : RunsConstrainedLoop r l n) {j k : Nat} (hsc : l.offset (r k) = l.sc)
    (hlr : ∀ m, j < m → m < k → l.offset (r m) ≠ 0) {m : Nat} (hjm : j < m) (hmk : m ≤ k) :
    (r m).reservation = (r (j + 1)).reservation := by
  induction m, hjm using Nat.le_induction with
  | base => rfl
  | succ m hjm ih =>
    have hbefore : l.offset (r m) < l.offset (r k) := offset_lt_of_no_lr h hmk fun m' hm' hmk' => by
      obtain hlt | rfl := hmk'.lt_or_eq
      · exact hlr m' (by omega) hlt
      · exact hsc ▸ h.scAfterLr.ne'
    exact (loop_other_keepsReservation h (hlr m hjm hmk) (by omega)).1.trans (ih (by omega))

/-- The LR of the loop reserves a block around its address and takes no draw. -/
theorem loop_lr_reserves (h : RunsConstrainedLoop r l n) (hg : (r 0).cfg.granuleOk = true) {k : Nat}
    (hk : l.offset (r k) = 0) :
    (r (k + 1)).scDraws = (r k).scDraws ∧ ∃ a q, (r k).accessAddr = some a ∧ (r (k + 1)).reservation = some q ∧
      q.base.toNat ≤ a ∧ a + n ≤ q.base.toNat + q.size := by
  obtain ⟨i, hi, hLR⟩ := loop_lr h hk
  have hgk : (r k).cfg.granuleOk = true := by rwa [isRun_cfg h.isRun]
  obtain ⟨hdraws, rs1, q, hacc, hq, hcovers⟩ :=
    reserves_of_isLR (s := { r k with fetchDraws := (r k).fetch.2 }) hLR hgk (isRun_exec h.isRun k hi)
      (isRun_running h.isRun (k + 1))
  exact ⟨hdraws, _, q, accessAddr_of_atomic hi hacc, hq, hcovers⟩

/-- The SC of the loop takes a draw when its reservation holds, and stores when the draw does not fail. -/
theorem loop_sc_stores (h : RunsConstrainedLoop r l n) (hm : Memory.wf (r 0).mem = true) {k : Nat}
    (hk : l.offset (r k) = l.sc) :
    ∃ rd rs2 rs1 aq rl,
      ((r k).decoded = some (.scW rd rs2 rs1 aq rl) ∧ n = 4 ∨ (r k).decoded = some (.scD rd rs2 rs1 aq rl) ∧ n = 8) ∧
      (r k).accessAddr = some ((r k).xNat rs1) ∧ ((r k).holds ((r k).rX rs1) n → TakesDraw r k) ∧
      (TakesDraw r k → Config.scFails (r k).scDraws = false → (r (k + 1)).xNat rd = 0 ∧
        (r (k + 1)).bytesNat (byteAddrs ((r k).rX rs1) n) = (r k).xNat rs2 % 256 ^ n) := by
  obtain ⟨i, hi, hSC⟩ := loop_sc h hk
  obtain ⟨rd, rs2, rs1, aq, rl, hwidth, hacc, htakes, hstores⟩ :=
    stores_of_isSC (s := { r k with fetchDraws := (r k).fetch.2 }) hSC (isRun_memory_wf h.isRun hm k)
      (isRun_exec h.isRun k hi) (isRun_running h.isRun (k + 1))
  refine ⟨rd, rs2, rs1, aq, rl, ?_, accessAddr_of_atomic hi hacc, htakes, hstores⟩
  rw [hi]
  exact hwidth.imp (And.imp_left (congrArg some)) (And.imp_left (congrArg some))

/-- An SC after an LR of the loop takes a draw: it goes to the address of the latest LR, whose reservation still stands. -/
theorem takesDraw_of_sc (h : RunsConstrainedLoop r l n) (hg : (r 0).cfg.granuleOk = true)
    (hm : Memory.wf (r 0).mem = true) {j k : Nat} (hjk : j < k) (hj : l.offset (r j) = 0) (hk : l.offset (r k) = l.sc)
    (hlr : ∀ m, j < m → m < k → l.offset (r m) ≠ 0) : TakesDraw r k := by
  obtain ⟨-, a, q, haddr, hq, hcovers⟩ := loop_lr_reserves h hg hj
  obtain ⟨rd, rs2, rs1, aq, rl, -, haddr', htakes, -⟩ := loop_sc_stores h hm hk
  have hstands : (r k).reservation = some q := (reservation_until_sc h hk hlr hjk le_rfl).trans hq
  have hsame : a = (r k).xNat rs1 := by
    have haddrs := h.sameAddress j k hjk hj hk hlr
    rwa [haddr, haddr', Option.some_inj] at haddrs
  subst hsame
  exact htakes ⟨q, hstands, hcovers⟩

/-- A step of the loop that takes a draw executes its SC. -/
theorem offset_eq_sc_of_takesDraw (h : RunsConstrainedLoop r l n) (hg : (r 0).cfg.granuleOk = true) {k : Nat}
    (hdraw : TakesDraw r k) : l.offset (r k) = l.sc := by
  have hmore : (r (k + 1)).scDraws ≠ (r k).scDraws := by
    rw [hdraw]
    omega
  by_contra hsc
  by_cases h0 : l.offset (r k) = 0
  · exact hmore (loop_lr_reserves h hg h0).1
  · exact hmore (loop_other_keepsReservation h h0 hsc).2

/-- A run of the loop that comes to its SC again and again takes draws for ever. -/
theorem takesDraws_for_ever (h : RunsConstrainedLoop r l n) (hg : (r 0).cfg.granuleOk = true)
    (hm : Memory.wf (r 0).mem = true) (hsc : ∀ m, ∃ k, m ≤ k ∧ l.offset (r k) = l.sc) (m : Nat) :
    ∃ k, m ≤ k ∧ TakesDraw r k := by
  obtain ⟨k₁, hm₁, h₁⟩ := hsc m
  obtain ⟨k₂, h₁₂, h₂⟩ := hsc (k₁ + 1)
  obtain ⟨j, hj, hj0, hlr⟩ := exists_latest_lr h h₁₂ h₁ h₂
  exact ⟨k₂, by omega, takesDraw_of_sc h hg hm hj hj0 h₂ hlr⟩

end Loop

/-! ### The obligations of 44_rv32a.md about progress -/

/-- Settles O33: unless all draws fail from the next one on, some later draw does not, and a retry reaches it round by
round. -/
theorem retriedStoreConditionalSucceedsUnlessTheDrawFailsForEver :
    Obligations.RetriedStoreConditionalSucceedsUnlessTheDrawFailsForEver := by
  intro s rd rd' rs1 rs2 hg hm hacc h1 h2 h1' h2' _
  by_cases hfails : ∀ m, s.scDraws ≤ m → Config.scFails m = true
  · exact .inr ⟨s.scDraws, hfails⟩
  · push Not at hfails
    obtain ⟨m, hle, hdraw⟩ := hfails
    obtain ⟨d, rfl⟩ := Nat.exists_eq_add_of_le hle
    exact .inl (exists_lrScRounds (Bool.eq_false_of_not_eq_true hdraw) hg hm hacc h1 h2 h1' h2')

/-- Settles O58: a fair run has, among the draws it takes for ever, one that does not fail; only the SC of the loop takes
draws, and with that one it stores. -/
theorem constrainedLoopStoresUnlessTheRunIsUnfair : Obligations.ConstrainedLoopStoresUnlessTheRunIsUnfair := by
  intro r l n hg hm h hsc
  by_cases hfair : ScFair r
  · have hfromStart : RunsConstrainedLoop (fun k => r (0 + k)) l n := by simpa only [Nat.zero_add] using h
    obtain ⟨k, -, hdraw, hsucceeds⟩ := hfair 0 l n hfromStart (takesDraws_for_ever h hg hm hsc)
    obtain ⟨rd, rs2, rs1, aq, rl, hrow, -, -, hstores⟩ := loop_sc_stores h hm (offset_eq_sc_of_takesDraw h hg hdraw)
    exact .inl ⟨k, rd, rs2, rs1, aq, rl, hrow, hdraw, hsucceeds, hstores hdraw hsucceeds⟩
  · exact .inr hfair

end Sys2Proof.Proofs

/-!
# The doubleword AMOs of RV64A (R250, R253 to R261)

All nine are the shared AMO of eight bytes behind the test of XLEN, on the low 64 bits of `x[rs2]`. Their results as numbers
are those proved for every width beside the word AMOs.
-/
namespace Sys2Proof.Proofs

open Sys2Proof.Machine Sys2Proof.Laws

/-- A doubleword AMO completes at XLEN = 64 where its eight bytes exist (R250). -/
theorem AmoComputes.updatesAt_doubleword {op : BitVec (8 * 8) → BitVec (8 * 8) → BitVec (8 * 8)} {f : Nat → Nat → Nat}
    (hop : AmoComputes 8 op f) {s : State} {i : Instr} {rd rs2 : XReg} {a : BitVec s.cfg.xlen.bits}
    (hxl : s.cfg.xlen = .rv64) (hexec : exec i s = onRv64 s i (amo s rd a 8 op ((s.rX rs2).setWidth 64)))
    (hm : Memory.wf s.mem = true) (hacc : s.accessible a 8) :
    UpdatesAt s i (byteAddrs a 8) rd (s.ofInt (signedBytes 8 (s.bytesNat (byteAddrs a 8))))
      (f (s.bytesNat (byteAddrs a 8)) (s.xNat rs2 % 2 ^ 64)) :=
  hop.updatesAt (hexec.trans (onRv64_of_rv64 hxl i _)) (BitVec.toNat_setWidth 64 (s.rX rs2)) hm le_rfl hacc

/-! ### The obligation of 45_rv64a.md -/

/-- Settles O35: the nine are the shared AMO of eight bytes with the nine operations of the word AMOs. -/
theorem atomicDoublewordUpdates : Obligations.AtomicDoublewordUpdates := by
  intro s rd rs2 rs1 aq rl hxl hm hacc as o v old
  exact ⟨amoComputes_swap.updatesAt_doubleword hxl rfl hm hacc, amoComputes_add.updatesAt_doubleword hxl rfl hm hacc,
    amoComputes_xor.updatesAt_doubleword hxl rfl hm hacc, amoComputes_or.updatesAt_doubleword hxl rfl hm hacc,
    amoComputes_and.updatesAt_doubleword hxl rfl hm hacc, amoComputes_min.updatesAt_doubleword hxl rfl hm hacc,
    amoComputes_max.updatesAt_doubleword hxl rfl hm hacc, amoComputes_minu.updatesAt_doubleword hxl rfl hm hacc,
    amoComputes_maxu.updatesAt_doubleword hxl rfl hm hacc⟩

end Sys2Proof.Proofs

/-!
# Exact results and their rounding to an integer multiple of a quantum (R274)

What `pow2`, `isqrt`, `ratLog2` and the excess over the floor are as real numbers, and from them the two facts about exact
results that rounding to a format rests on: `log2` is the exponent `e` of R274, and `roundTo` is the integer its mode
chooses, inexact exactly where it differs from the real it stands for.
-/
namespace Sys2Proof.Proofs

open Sys2Proof.Machine Sys2Proof.Laws

/-! ### Powers of two and integer square roots -/

theorem pow2_eq_zpow (e : Int) : pow2 e = 2 ^ e := by
  cases e with
  | ofNat n => simp [pow2]
  | negSucc n => simp [pow2, Rat.mkRat_eq_div, zpow_negSucc]

theorem pow2_pos (e : Int) : 0 < pow2 e := by
  rw [pow2_eq_zpow]
  positivity

theorem pow2_add (d e : Int) : pow2 (d + e) = pow2 d * pow2 e := by
  simp only [pow2_eq_zpow, zpow_add₀ (two_ne_zero (α := Rat))]

theorem pow2_natCast (n : Nat) : pow2 n = 2 ^ n := by
  rw [pow2_eq_zpow, zpow_natCast]

@[simp] theorem pow2_cast (e : Int) : ((pow2 e : Rat) : Real) = 2 ^ e := by
  rw [pow2_eq_zpow]
  push_cast
  rfl

theorem pow2_le_iff {e : Int} {v : Rat} : pow2 e ≤ v ↔ (2 : Real) ^ e ≤ v := by
  rw [← pow2_cast, Rat.cast_le]

theorem lt_pow2_iff {e : Int} {v : Rat} : v < pow2 e ↔ (v : Real) < 2 ^ e := by
  rw [← pow2_cast, Rat.cast_lt]

theorem pow2_lt_iff {d e : Int} : pow2 d < pow2 e ↔ d < e := by
  rw [pow2_eq_zpow, pow2_eq_zpow]
  exact zpow_lt_zpow_iff_right₀ one_lt_two

/-- One step of the search halves the interval that holds the root. -/
theorem isqrtFrom_bounds (n i r : Nat) (hle : r * r ≤ n) (hlt : n < (r + 2 ^ i) * (r + 2 ^ i)) :
    isqrtFrom n i r * isqrtFrom n i r ≤ n ∧ n < (isqrtFrom n i r + 1) * (isqrtFrom n i r + 1) := by
  induction i generalizing r with
  | zero => exact ⟨hle, hlt⟩
  | succ i ih =>
    have htop : r + 2 ^ i + 2 ^ i = r + 2 ^ (i + 1) := by ring
    rw [isqrtFrom]
    split_ifs with h
    · exact ih _ h (htop ▸ hlt)
    · exact ih _ hle (not_le.1 h)

/-- The model's integer square root is the library's. -/
theorem isqrt_eq_sqrt (n : Nat) : isqrt n = n.sqrt := by
  refine Nat.eq_sqrt.2 (isqrtFrom_bounds n _ 0 (Nat.zero_le n) ?_)
  calc n < 2 ^ (n.log2 + 1) := Nat.lt_log2_self
    _ ≤ 2 ^ (n.log2 / 2 + 1 + (n.log2 / 2 + 1)) := Nat.pow_le_pow_right two_pos (by omega)
    _ = (0 + 2 ^ (n.log2 / 2 + 1)) * (0 + 2 ^ (n.log2 / 2 + 1)) := by rw [pow_add, Nat.zero_add]

/-! ### The binary exponent of an exact result -/

/-- A natural other than zero lies between the powers of two at its logarithm. -/
theorem natLog2_bounds {n : Nat} (hn : n ≠ 0) : (2 : Rat) ^ (n.log2 : Int) ≤ n ∧ (n : Rat) < 2 ^ ((n.log2 : Int) + 1) := by
  have hle := Nat.log2_self_le hn
  have hlt := Nat.lt_log2_self (n := n)
  exact ⟨by exact_mod_cast hle, by exact_mod_cast hlt⟩

/-- The exponent of a quotient of naturals is the difference of theirs, up to one. -/
theorem log2_sub_bounds {a b : Nat} (ha : a ≠ 0) (hb : b ≠ 0) :
    (2 : Rat) ^ ((a.log2 : Int) - b.log2 - 1) ≤ a / b ∧ (a / b : Rat) < 2 ^ ((a.log2 : Int) - b.log2 + 1) := by
  obtain ⟨hale, halt⟩ := natLog2_bounds ha
  obtain ⟨hble, hblt⟩ := natLog2_bounds hb
  have hpos : (0 : Rat) < b := by exact_mod_cast Nat.pos_of_ne_zero hb
  rw [le_div_iff₀ hpos, div_lt_iff₀ hpos]
  constructor
  · calc (2 : Rat) ^ ((a.log2 : Int) - b.log2 - 1) * b
        ≤ 2 ^ ((a.log2 : Int) - b.log2 - 1) * 2 ^ ((b.log2 : Int) + 1) := by gcongr
      _ = 2 ^ (a.log2 : Int) := by rw [← zpow_add₀ two_ne_zero]; congr 1; ring
      _ ≤ a := hale
  · calc (a : Rat) < 2 ^ ((a.log2 : Int) + 1) := halt
      _ = 2 ^ ((a.log2 : Int) - b.log2 + 1) * 2 ^ (b.log2 : Int) := by
        rw [← zpow_add₀ two_ne_zero]; congr 1; ring
      _ ≤ 2 ^ ((a.log2 : Int) - b.log2 + 1) * b := by gcongr

/-- `ratLog2` is the exponent of a positive rational: the test settles which of the two candidates it is. -/
theorem ratLog2_bounds {v : Rat} (hv : 0 < v) : pow2 (ratLog2 v) ≤ v ∧ v < pow2 (ratLog2 v + 1) := by
  have hquot : (v.num.natAbs : Rat) / v.den = v := by
    rw [Nat.cast_natAbs, abs_of_pos (Rat.num_pos.2 hv), Rat.num_div_den]
  obtain ⟨hlow, hhigh⟩ := log2_sub_bounds (Int.natAbs_ne_zero.2 (Rat.num_pos.2 hv).ne') v.den_nz
  rw [hquot] at hlow hhigh
  simp only [ratLog2, pow2_eq_zpow]
  split_ifs with h
  · exact ⟨h, hhigh⟩
  · exact ⟨hlow, by simpa using h⟩

theorem neg_eq_decide {x : Exact} {r : Real} (hx : x.isReal r) : x.neg = decide (r < 0) := by
  cases x with
  | rat v =>
    obtain ⟨rfl, -⟩ := hx
    simp [Exact.neg]
  | root v => simp [Exact.neg, hx.2.le]

/-- The exponent of an exact result is `floor(log2 |r|)` (R274). -/
theorem log2_bounds {x : Exact} {r : Real} (hx : x.isReal r) :
    (2 : Real) ^ x.log2 ≤ |r| ∧ |r| < (2 : Real) ^ (x.log2 + 1) := by
  cases x with
  | rat v =>
    obtain ⟨rfl, hr⟩ := hx
    have hv : v ≠ 0 := by exact_mod_cast hr
    have habs : (if v < 0 then -v else v) = |v| := by
      split_ifs with h
      · exact (abs_of_neg h).symm
      · exact (abs_of_nonneg (not_lt.1 h)).symm
    obtain ⟨hle, hlt⟩ := ratLog2_bounds (abs_pos.2 hv)
    rw [Exact.log2, habs]
    rw [← Rat.cast_abs]
    exact ⟨pow2_le_iff.1 hle, lt_pow2_iff.1 hlt⟩
  | root v =>
    obtain ⟨hsq, hr⟩ := hx
    have hv : 0 < v := by exact_mod_cast hsq ▸ mul_pos hr hr
    obtain ⟨hle, hlt⟩ := ratLog2_bounds hv
    have hle' : (2 : Real) ^ ratLog2 v ≤ r * r := hsq ▸ pow2_le_iff.1 hle
    have hlt' : r * r < (2 : Real) ^ (ratLog2 v + 1) := hsq ▸ lt_pow2_iff.1 hlt
    rw [abs_of_pos hr, Exact.log2]
    constructor
    · refine (mul_self_le_mul_self_iff (by positivity) hr.le).2 (le_trans ?_ hle')
      rw [← zpow_add₀ two_ne_zero]
      exact zpow_le_zpow_right₀ one_le_two (by omega)
    · refine (mul_self_lt_mul_self_iff hr.le (by positivity)).2 (hlt'.trans_le ?_)
      rw [← zpow_add₀ two_ne_zero]
      exact zpow_le_zpow_right₀ one_le_two (by omega)

/-! ### The floor and the excess over it -/

/-- `Measures x d`: the excess `x` says where the real `d` lies between 0 and 1. -/
def Measures : Excess → Real → Prop
  | .none, d => d = 0
  | .belowHalf, d => 0 < d ∧ d < 1 / 2
  | .half, d => d = 1 / 2
  | .aboveHalf, d => 1 / 2 < d ∧ d < 1

theorem Measures.bounds {x : Excess} {d : Real} (h : Measures x d) : 0 ≤ d ∧ d < 1 := by
  cases x <;> simp only [Measures] at h <;> constructor <;> linarith

theorem Measures.eq_none_iff {x : Excess} {d : Real} (h : Measures x d) : x = .none ↔ d = 0 := by
  cases x <;> simp only [Measures] at h <;> simp only [reduceCtorEq, true_iff, false_iff] <;> linarith

/-- The excess of a rational is that over its floor. -/
theorem excessOf_measures (t : Rat) : Measures (excessOf t) (t - t.floor : Rat) := by
  have hle : 0 ≤ t - t.floor := sub_nonneg.2 (Int.floor_le t)
  have hlt : t - t.floor < 1 := sub_left_lt_of_lt_add (Int.lt_floor_add_one t)
  unfold excessOf
  generalize t - t.floor = d at hle hlt
  have hhalf : mkRat 1 2 = 1 / 2 := by norm_num [Rat.mkRat_eq_div]
  have hcast : ((1 / 2 : Rat) : Real) = 1 / 2 := by norm_num
  dsimp only
  rw [hhalf]
  split_ifs with hzero hbelow heq
  · exact Rat.cast_eq_zero.2 hzero
  · exact ⟨Rat.cast_pos.2 (hle.lt_of_ne' hzero), hcast ▸ Rat.cast_lt.2 hbelow⟩
  · rw [heq]
    exact hcast
  · exact ⟨hcast ▸ Rat.cast_lt.2 ((not_lt.1 hbelow).lt_of_ne' heq), by exact_mod_cast hlt⟩

/-- The excess of the root of a rational is that over any natural below it by less than one; the comparisons are those of
squares. -/
theorem excessOfRoot_measures {w : Rat} {f : Nat} {r : Real} (hr : 0 < r) (hsq : r * r = w) (hle : f ≤ r)
    (hlt : r < f + 1) : Measures (excessOfRoot w f) (r - f) := by
  have hf : (0 : Real) ≤ f := Nat.cast_nonneg f
  have hsq4 : 2 * r * (2 * r) = (4 * w : Rat) := by
    push_cast
    rw [← hsq]
    ring
  have hself : w = ((f * f : Nat) : Rat) ↔ r = f := by
    rw [← mul_self_inj hr.le hf, hsq]
    exact_mod_cast Iff.rfl
  have hbelow : 4 * w < (((2 * f + 1) * (2 * f + 1) : Nat) : Rat) ↔ 2 * r < 2 * f + 1 := by
    rw [mul_self_lt_mul_self_iff (mul_pos two_pos hr).le (by positivity), hsq4]
    exact_mod_cast Iff.rfl
  have hhalf : 4 * w = (((2 * f + 1) * (2 * f + 1) : Nat) : Rat) ↔ 2 * r = 2 * f + 1 := by
    rw [← mul_self_inj (mul_pos two_pos hr).le (by positivity), hsq4]
    exact_mod_cast Iff.rfl
  unfold excessOfRoot
  simp only [hself, hbelow, hhalf]
  split_ifs with h0 h1 h2
  · exact sub_eq_zero.2 h0
  · exact ⟨sub_pos.2 (hle.lt_of_ne' h0), by linarith⟩
  · simp only [Measures]; linarith
  · exact ⟨by have := (not_lt.1 h1).lt_of_ne' h2; linarith, by linarith⟩

/-- The integer root of the floor of `w` is the floor of the root of `w`. -/
theorem sqrt_floor_bounds {w : Rat} {r : Real} (hr : 0 < r) (hsq : r * r = w) :
    ((Nat.sqrt w.floor.toNat : Nat) : Real) ≤ r ∧ r < (Nat.sqrt w.floor.toNat : Nat) + 1 := by
  have hw : 0 ≤ w := by exact_mod_cast hsq ▸ (mul_pos hr hr).le
  have hfloor : ((w.floor.toNat : Nat) : Real) ≤ r * r ∧ r * r < (w.floor.toNat : Nat) + 1 := by
    rw [hsq]
    exact ⟨by exact_mod_cast Nat.floor_le hw, by exact_mod_cast Nat.lt_floor_add_one w⟩
  have hle : ((Nat.sqrt w.floor.toNat * Nat.sqrt w.floor.toNat : Nat) : Real) ≤ (w.floor.toNat : Nat) :=
    Nat.cast_le.2 (Nat.sqrt_le _)
  have hlt : ((w.floor.toNat + 1 : Nat) : Real) ≤
      (((Nat.sqrt w.floor.toNat + 1) * (Nat.sqrt w.floor.toNat + 1) : Nat) : Real) :=
    Nat.cast_le.2 (Nat.lt_succ_sqrt _)
  push_cast at hle hlt
  exact ⟨(mul_self_le_mul_self_iff (Nat.cast_nonneg _) hr.le).2 (hle.trans hfloor.1),
    (mul_self_lt_mul_self_iff hr.le (by positivity)).2 (hfloor.2.trans_le hlt)⟩

/-- The floor and the excess of an exact result over a quantum are those of its real quotient by it. -/
theorem divQuantum_measures {x : Exact} {r : Real} (hx : x.isReal r) (q : Int) :
    Measures (x.divQuantum q).2 (r / 2 ^ q - (x.divQuantum q).1) := by
  cases x with
  | rat v =>
    obtain ⟨rfl, -⟩ := hx
    have hquot : (v : Real) / 2 ^ q = ((v * pow2 (-q) : Rat) : Real) := by
      push_cast [pow2_cast]
      rw [zpow_neg, div_eq_mul_inv]
    have h := excessOf_measures (v * pow2 (-q))
    rw [hquot]
    push_cast at h ⊢
    exact h
  | root v =>
    obtain ⟨hsq, hr⟩ := hx
    have hpos : 0 < r / 2 ^ q := by positivity
    have hsquare : r / 2 ^ q * (r / 2 ^ q) = (v * pow2 (-(2 * q)) : Rat) := by
      push_cast [pow2_cast]
      rw [div_mul_div_comm, hsq, ← zpow_add₀ two_ne_zero, ← two_mul, zpow_neg, div_eq_mul_inv]
    obtain ⟨hle, hlt⟩ := sqrt_floor_bounds hpos hsquare
    simp only [Exact.divQuantum, isqrt_eq_sqrt, Int.cast_natCast]
    exact excessOfRoot_measures hpos hsquare hle hlt

/-! ### The integer a mode chooses (R274) -/

/-- Every mode chooses an integer less than one away. -/
theorem abs_sub_lt_one_of_chooses {m : RMode} {t : Real} {n : Int} (h : m.chooses t n) : |(n : Real) - t| < 1 := by
  cases m with
  | rne | rmm => linarith [h.1]
  | rtz => exact h.1
  | rdn => exact abs_lt.2 ⟨by linarith [h.2], by linarith [h.1]⟩
  | rup => exact abs_lt.2 ⟨by linarith [h.1], by linarith [h.2]⟩

/-- Rounding does not pass an integer from below. -/
theorem le_of_chooses {m : RMode} {t : Real} {n a : Int} (h : m.chooses t n) (ha : a ≤ t) : a ≤ n := by
  have hn := (abs_lt.1 (abs_sub_lt_one_of_chooses h)).1
  have : (a : Real) < n + 1 := by linarith
  exact Int.lt_add_one_iff.1 (by exact_mod_cast this)

/-- Rounding does not pass an integer from above. -/
theorem ge_of_chooses {m : RMode} {t : Real} {n a : Int} (h : m.chooses t n) (ha : t ≤ a) : n ≤ a := by
  have hn := (abs_lt.1 (abs_sub_lt_one_of_chooses h)).2
  have : (n : Real) < a + 1 := by linarith
  exact Int.lt_add_one_iff.1 (by exact_mod_cast this)

/-- Where an integer `f` is the floor of `t` with excess `d`, the distances from `t` to it and to the next one. -/
theorem abs_floor_sub {t : Real} {f : Int} (h0 : 0 ≤ t - f) (h1 : t - f < 1) :
    |(f : Real) - t| = t - f ∧ |((f + 1 : Int) : Real) - t| = 1 - (t - f) := by
  push_cast
  exact ⟨by rw [abs_sub_comm, abs_of_nonneg h0], by rw [abs_of_nonneg (by linarith)]; ring⟩

/-- Toward zero is up below zero and down above it. -/
theorem chooses_rtz {t : Real} {f : Int} (h0 : 0 ≤ t - f) (h1 : t - f < 1) :
    (t < 0 → 0 < t - f → RMode.rtz.chooses t (f + 1)) ∧ (0 ≤ t → RMode.rtz.chooses t f) := by
  obtain ⟨hfloor, hceil⟩ := abs_floor_sub h0 h1
  constructor
  · intro ht hd
    have hf : ((f + 1 : Int) : Real) ≤ 0 := by
      have : (f : Real) < 0 := by linarith
      exact_mod_cast Int.add_one_le_iff.2 (Int.cast_lt_zero.1 this)
    refine ⟨by rw [hceil]; linarith, ?_⟩
    rw [abs_of_nonpos hf, abs_of_neg ht]
    push_cast
    linarith
  · intro ht
    have hf : (0 : Real) ≤ f := by
      have : (-1 : Real) < f := by linarith
      exact_mod_cast Int.add_one_le_iff.2 (show -1 < f by exact_mod_cast this)
    refine ⟨by rw [hfloor]; exact h1, ?_⟩
    rw [abs_of_nonneg hf, abs_of_nonneg ht]
    linarith

/-- The floor and the next integer as choices of the modes to nearest, when the excess is not half. -/
theorem chooses_nearest {m : RMode} (hm : m = .rne ∨ m = .rmm) {t : Real} {n : Int} (h : |(n : Real) - t| < 1 / 2) :
    m.chooses t n := by
  obtain rfl | rfl := hm <;> exact ⟨h.le, fun he => absurd he h.ne⟩

/-- Every mode leaves an integer as it is. -/
theorem chooses_self (m : RMode) (f : Int) : m.chooses f f := by
  have hzero : |(f : Real) - f| = 0 := by rw [sub_self, abs_zero]
  cases m with
  | rne | rmm => exact chooses_nearest (by simp) (hzero ▸ one_half_pos)
  | rtz => exact ⟨hzero ▸ one_pos, le_rfl⟩
  | rdn => exact ⟨le_rfl, lt_add_one _⟩
  | rup => exact ⟨le_rfl, sub_one_lt _⟩

/-- A tie goes to the even integer, or to the one of the larger magnitude. -/
theorem chooses_tie {t : Real} {f : Int} (h : t - f = 1 / 2) :
    RMode.rne.chooses t (if f % 2 = 0 then f else f + 1) ∧
      RMode.rmm.chooses t (if decide (t < 0) = true then f else f + 1) := by
  obtain ⟨hfloor, hceil⟩ := abs_floor_sub (by linarith : 0 ≤ t - f) (by linarith)
  constructor
  · split_ifs with heven
    · exact ⟨by rw [hfloor, h], fun _ => heven⟩
    · exact ⟨by rw [hceil, h]; norm_num, fun _ => by omega⟩
  · split_ifs with ht
    · have ht := of_decide_eq_true ht
      refine ⟨by rw [hfloor, h], fun _ => ?_⟩
      rw [abs_of_neg ht, abs_of_neg (by linarith)]
      linarith
    · have ht : 0 ≤ t := not_lt.1 fun hlt => ht (decide_eq_true hlt)
      refine ⟨by rw [hceil, h]; norm_num, fun _ => ?_⟩
      rw [abs_of_nonneg ht, abs_of_nonneg (by push_cast; linarith)]
      push_cast
      linarith

/-- Rounding does not pass a natural in magnitude, from below or from above. -/
theorem natAbs_of_chooses {m : RMode} {t : Real} {n : Int} (h : m.chooses t n) (a : Nat) :
    ((a : Real) ≤ |t| → a ≤ n.natAbs) ∧ (|t| ≤ a → n.natAbs ≤ a) := by
  constructor
  · intro ha
    obtain hpos | hneg := le_abs.1 ha
    · have : (a : Int) ≤ n := le_of_chooses h (by exact_mod_cast hpos)
      omega
    · have : n ≤ -(a : Int) := ge_of_chooses h (by push_cast; linarith)
      omega
  · intro ha
    obtain ⟨hlow, hhigh⟩ := abs_le.1 ha
    have h1 : -(a : Int) ≤ n := le_of_chooses h (by push_cast; exact hlow)
    have h2 : n ≤ a := ge_of_chooses h (by exact_mod_cast hhigh)
    omega

/-- `roundInt` chooses as R274 says, from the floor, the excess and the sign. -/
theorem roundInt_chooses (m : RMode) {f : Int} {x : Excess} {t : Real} (h : Measures x (t - f)) :
    m.chooses t (roundInt m (decide (t < 0)) f x) := by
  obtain ⟨h0, h1⟩ := h.bounds
  obtain ⟨hfloor, hceil⟩ := abs_floor_sub h0 h1
  have hdown : RMode.rdn.chooses t f := ⟨by linarith, by linarith⟩
  have hup : 0 < t - f → RMode.rup.chooses t (f + 1) := fun hd => by
    constructor <;> push_cast <;> linarith
  have hzero : 0 < t - f → RMode.rtz.chooses t (if decide (t < 0) = true then f + 1 else f) := fun hd => by
    split_ifs with ht
    · exact (chooses_rtz h0 h1).1 (of_decide_eq_true ht) hd
    · exact (chooses_rtz h0 h1).2 (not_lt.1 fun hlt => ht (decide_eq_true hlt))
  cases x with
  | none =>
    obtain rfl : t = f := sub_eq_zero.1 h
    exact chooses_self m f
  | belowHalf =>
    obtain ⟨hpos, hhalf⟩ := h
    cases m with
    | rne | rmm => exact chooses_nearest (by simp) (hfloor ▸ hhalf)
    | rtz => exact hzero hpos
    | rdn => exact hdown
    | rup => exact hup hpos
  | half =>
    have hhalf : t - f = 1 / 2 := h
    have hpos : 0 < t - f := by rw [hhalf]; norm_num
    cases m with
    | rne => exact (chooses_tie hhalf).1
    | rmm => exact (chooses_tie hhalf).2
    | rtz => exact hzero hpos
    | rdn => exact hdown
    | rup => exact hup hpos
  | aboveHalf =>
    obtain ⟨hhalf, -⟩ := h
    have hpos : 0 < t - f := by linarith
    have hnear : |((f + 1 : Int) : Real) - t| < 1 / 2 := by rw [hceil]; linarith
    cases m with
    | rne | rmm => exact chooses_nearest (by simp) hnear
    | rtz => exact hzero hpos
    | rdn => exact hdown
    | rup => exact hup hpos

/-! ### Rounding an exact result to a multiple of a quantum -/

variable {x : Exact} {r : Real}

/-- `roundTo` gives the integer that the mode chooses for the quotient by the quantum. -/
theorem roundTo_chooses (hx : x.isReal r) (m : RMode) (q : Int) : m.chooses (r / 2 ^ q) (x.roundTo m q).1 := by
  have hneg : x.neg = decide (r / 2 ^ q < 0) := by
    rw [neg_eq_decide hx]
    exact decide_eq_decide.2 (by rw [div_lt_iff₀ (by positivity), zero_mul])
  rw [Exact.roundTo, hneg]
  exact roundInt_chooses m (divQuantum_measures hx q)

/-- `roundTo` is inexact exactly where the chosen integer differs from the quotient. -/
theorem roundTo_inexact (hx : x.isReal r) (m : RMode) (q : Int) :
    (x.roundTo m q).2 = true ↔ ((x.roundTo m q).1 : Real) ≠ r / 2 ^ q := by
  have hmeas := divQuantum_measures hx q
  have hinexact : (x.roundTo m q).2 = true ↔ r / 2 ^ q - (x.divQuantum q).1 ≠ 0 :=
    decide_eq_true_iff.trans hmeas.eq_none_iff.not
  rw [hinexact]
  refine not_congr ⟨fun hzero => ?_, fun heq => ?_⟩
  · have hnone := hmeas.eq_none_iff.2 hzero
    simp only [Exact.roundTo, hnone, roundInt]
    linarith
  · obtain ⟨h0, h1⟩ := hmeas.bounds
    rw [← heq] at h0 h1 ⊢
    have h0' : (x.divQuantum q).1 ≤ (x.roundTo m q).1 := by exact_mod_cast sub_nonneg.1 h0
    have h1' : (x.roundTo m q).1 < (x.divQuantum q).1 + 1 := by
      exact_mod_cast (by linarith : ((x.roundTo m q).1 : Real) < (x.divQuantum q).1 + 1)
    exact_mod_cast sub_eq_zero.2 (le_antisymm (Int.lt_add_one_iff.1 h1') h0')

/-- A multiple of the quantum rounds to itself. -/
theorem roundTo_of_eq (hx : x.isReal r) (m : RMode) {q n : Int} (hn : r / 2 ^ q = n) : x.roundTo m q = (n, false) := by
  have hchooses := roundTo_chooses hx m q
  have hround : (x.roundTo m q).1 = n :=
    le_antisymm (ge_of_chooses hchooses hn.le) (le_of_chooses hchooses hn.ge)
  refine Prod.ext hround (Bool.eq_false_iff.2 ?_)
  rw [Ne, roundTo_inexact hx, hround, hn]
  exact not_not.2 rfl

/-- The chosen integer has the sign of the exact result, or is zero. -/
theorem roundTo_sign (hx : x.isReal r) (m : RMode) (q : Int) :
    ((x.roundTo m q).1 : Real) = if r < 0 then -((x.roundTo m q).1.natAbs : Real) else (x.roundTo m q).1.natAbs := by
  have hchooses := roundTo_chooses hx m q
  rw [Nat.cast_natAbs]
  split_ifs with hr
  · have hle : (x.roundTo m q).1 ≤ 0 :=
      ge_of_chooses hchooses (by simpa using (div_neg_of_neg_of_pos hr (by positivity)).le)
    rw [abs_of_nonpos hle]
    push_cast
    ring
  · have hge : 0 ≤ (x.roundTo m q).1 :=
      le_of_chooses hchooses (by simpa using div_nonneg (not_lt.1 hr) (by positivity))
    rw [abs_of_nonneg hge]

end Sys2Proof.Proofs

/-!
# The bit patterns of a format and their values (R273, R274)

The value of a pattern from its fields as numbers, then the two directions between patterns and values: the pattern that the
model packs has the value it was packed for, and a pattern with a given value is the packed one.
-/
namespace Sys2Proof.Proofs

open Sys2Proof.Machine Sys2Proof.Laws

/-! ### The parameters of a format -/

section Parameters

variable (F : Fmt)

theorem two_pow_width_pred : 2 ^ (F.width - 1) = 2 ^ F.fracBits * 2 ^ F.expBits := by
  rw [← pow_add]
  cases F <;> rfl

theorem two_pow_width : 2 ^ F.width = 2 * 2 ^ (F.width - 1) := by
  rw [← pow_succ']
  cases F <;> rfl

/-- The exponent field counts from the smallest exponent to the largest, and two values are reserved. -/
theorem two_pow_expBits : ((2 ^ F.expBits : Nat) : Int) = 2 * F.emax + 2 := by cases F <;> rfl

theorem emax_bounds : 127 ≤ F.emax := by cases F <;> decide

theorem emin_eq : F.emin = 1 - F.emax := rfl

theorem prec_eq : (F.prec : Int) = F.fracBits + 1 := rfl

theorem qmin_eq : F.qmin = F.emin - F.fracBits := by
  rw [Fmt.qmin, prec_eq]
  ring

theorem fracBits_pos : 0 < F.fracBits := by cases F <;> decide

theorem fracBits_lt_emax : (F.fracBits : Int) < F.emax - 1 := by cases F <;> decide

end Parameters

/-! ### The fields of a pattern -/

section Fields

variable {F : Fmt}

/-- The top bit of a field is clear in its smaller half of the values. -/
theorem not_getLsbD_eq_decide {w : Nat} (b : BitVec w) {f : Nat} (hf : 0 < f) :
    (!b.getLsbD (f - 1)) = decide (b.toNat % 2 ^ f < 2 ^ (f - 1)) := by
  obtain ⟨g, rfl⟩ := Nat.exists_eq_add_of_lt hf
  have hlow := Nat.mod_lt b.toNat (Nat.two_pow_pos g)
  have hbit := Nat.mod_two_eq_zero_or_one (b.toNat / 2 ^ g)
  rw [BitVec.getLsbD, Nat.testBit_eq_decide_div_mod_eq, ← decide_not]
  refine decide_eq_decide.2 ?_
  simp only [Nat.zero_add, Nat.add_sub_cancel, Nat.mod_pow_succ]
  obtain h | h := hbit <;> simp [h, hlow]

/-- The value of a pattern, from its fields as numbers. -/
theorem value_eq (b : BitVec F.width) :
    F.value b =
      if b.toNat / 2 ^ F.fracBits % 2 ^ F.expBits = 2 ^ F.expBits - 1 then
        if b.toNat % 2 ^ F.fracBits = 0 then .inf b.msb
        else .nan (decide (b.toNat % 2 ^ F.fracBits < 2 ^ (F.fracBits - 1)))
      else if b.toNat / 2 ^ F.fracBits % 2 ^ F.expBits = 0 then
        if b.toNat % 2 ^ F.fracBits = 0 then .zero b.msb
        else .fin (negIf b.msb (((b.toNat % 2 ^ F.fracBits : Nat) : Rat) * pow2 F.qmin))
      else .fin (negIf b.msb (((2 ^ F.fracBits + b.toNat % 2 ^ F.fracBits : Nat) : Rat) *
        pow2 (F.qmin + (b.toNat / 2 ^ F.fracBits % 2 ^ F.expBits - 1 : Nat)))) := by
  have hfrac : (b.extractLsb' 0 F.fracBits).toNat = b.toNat % 2 ^ F.fracBits := BitVec.extractLsb'_toNat 0 _ b
  have hexp : (b.extractLsb' F.fracBits F.expBits).toNat = b.toNat / 2 ^ F.fracBits % 2 ^ F.expBits := by
    rw [BitVec.extractLsb'_toNat, Nat.shiftRight_eq_div_pow]
  simp only [Fmt.value, hfrac, hexp, not_getLsbD_eq_decide b (fracBits_pos F)]

/-- The bits below the sign are the exponent and the fraction field. -/
theorem fields_eq_mod (b : BitVec F.width) :
    b.toNat / 2 ^ F.fracBits % 2 ^ F.expBits * 2 ^ F.fracBits + b.toNat % 2 ^ F.fracBits =
      b.toNat % 2 ^ (F.width - 1) := by
  rw [two_pow_width_pred, Nat.mod_mul, Nat.add_comm, Nat.mul_comm]

theorem signed_toNat (neg : Bool) {k : Nat} (hk : k < 2 ^ (F.width - 1)) :
    (F.signed neg k).toNat = (if neg then 2 ^ (F.width - 1) else 0) + k := by
  rw [Fmt.signed, BitVec.toNat_ofNat, Nat.mod_eq_of_lt]
  rw [two_pow_width]
  split_ifs <;> omega

theorem signed_msb (neg : Bool) {k : Nat} (hk : k < 2 ^ (F.width - 1)) : (F.signed neg k).msb = neg := by
  rw [BitVec.msb_eq_decide, signed_toNat neg hk]
  cases neg <;> simp [hk]

/-- The fields of a pattern put together are those of its magnitude. -/
theorem signed_fields (neg : Bool) {k : Nat} (hk : k < 2 ^ (F.width - 1)) :
    (F.signed neg k).toNat % 2 ^ F.fracBits = k % 2 ^ F.fracBits ∧
      (F.signed neg k).toNat / 2 ^ F.fracBits % 2 ^ F.expBits = k / 2 ^ F.fracBits := by
  have hdiv : k / 2 ^ F.fracBits < 2 ^ F.expBits := Nat.div_lt_of_lt_mul (two_pow_width_pred F ▸ hk)
  rw [signed_toNat neg hk, two_pow_width_pred]
  cases neg with
  | false => simp [Nat.mod_eq_of_lt hdiv]
  | true =>
    rw [if_pos rfl, Nat.mul_add_mod, Nat.mul_add_div (Nat.two_pow_pos _), Nat.add_mod_left, Nat.mod_eq_of_lt hdiv]
    exact ⟨rfl, rfl⟩

/-- A pattern is put together from its sign bit and its fields. -/
theorem eq_signed (b : BitVec F.width) :
    b = F.signed b.msb (b.toNat / 2 ^ F.fracBits % 2 ^ F.expBits * 2 ^ F.fracBits + b.toNat % 2 ^ F.fracBits) := by
  have hlt : b.toNat % 2 ^ (F.width - 1) < 2 ^ (F.width - 1) := Nat.mod_lt _ (Nat.two_pow_pos _)
  have hb := b.isLt
  apply BitVec.eq_of_toNat_eq
  rw [fields_eq_mod, signed_toNat _ hlt, BitVec.msb_eq_decide]
  rw [two_pow_width] at hb
  split_ifs with h
  · have hge := of_decide_eq_true h
    rw [Nat.mod_eq_sub_mod hge, Nat.mod_eq_of_lt (by omega)]
    omega
  · have hlt := not_le.1 fun hge => h (decide_eq_true hge)
    rw [Nat.mod_eq_of_lt hlt, Nat.zero_add]

end Fields

/-! ### From values to patterns and back -/

section Values

variable {F : Fmt}

/-- The magnitude of a finite pattern fits below its sign bit. -/
theorem lt_of_lt_inf {k : Nat} (hk : k < (2 ^ F.expBits - 1) * 2 ^ F.fracBits) : k < 2 ^ (F.width - 1) := by
  rw [two_pow_width_pred, Nat.mul_comm]
  exact hk.trans_le (Nat.mul_le_mul_right _ (Nat.sub_le _ _))

theorem one_lt_two_pow_expBits (F : Fmt) : 2 < 2 ^ F.expBits := by cases F <;> decide

theorem value_zero (F : Fmt) (neg : Bool) : F.value (F.zero neg) = .zero neg := by
  have hk : 0 < 2 ^ (F.width - 1) := Nat.two_pow_pos _
  obtain ⟨hfrac, hexp⟩ := signed_fields (F := F) neg hk
  have h2 := one_lt_two_pow_expBits F
  rw [Fmt.zero, value_eq, hfrac, hexp, signed_msb neg hk, Nat.zero_div, Nat.zero_mod, if_neg (by omega), if_pos rfl,
    if_pos rfl]

theorem eq_zero_of_value {b : BitVec F.width} {n : Bool} (h : F.value b = .zero n) : b = F.zero n ∧ b.msb = n := by
  rw [value_eq] at h
  split_ifs at h with hexp hfrac hexp hfrac
  obtain rfl := FVal.zero.inj h
  have hb := eq_signed b
  rw [hexp, hfrac, Nat.zero_mul] at hb
  exact ⟨hb, rfl⟩

theorem eq_inf_of_value {b : BitVec F.width} {n : Bool} (h : F.value b = .inf n) : b = F.inf n ∧ b.msb = n := by
  rw [value_eq] at h
  split_ifs at h with hexp hfrac hexp hfrac
  obtain rfl := FVal.inf.inj h
  have hb := eq_signed b
  rw [hexp, hfrac, Nat.add_zero] at hb
  exact ⟨hb, rfl⟩

/-- `Packs F q k`: the number `k * 2^q` is one that the model packs into a finite pattern, as `pack` demands it. -/
structure Packs (F : Fmt) (q : Int) (k : Nat) : Prop where
  /-- The quantum is not below that of the subnormal numbers. -/
  quantum : F.qmin ≤ q
  /-- The significand has at most `p` bits, or is a carry out of them. -/
  width : k ≤ 2 ^ (F.fracBits + 1)
  /-- It has all `p` bits unless the number is subnormal. -/
  normal : 2 ^ F.fracBits ≤ k ∨ q = F.qmin
  /-- The magnitude bits stay below those of the infinity. -/
  finite : (q - F.qmin).toNat * 2 ^ F.fracBits + k < (2 ^ F.expBits - 1) * 2 ^ F.fracBits

/-- Fields below an all-ones exponent make a magnitude below the infinity. -/
theorem fields_lt_inf {ex fr : Nat} (hfr : fr < 2 ^ F.fracBits) (hex : ex < 2 ^ F.expBits - 1) :
    ex * 2 ^ F.fracBits + fr < (2 ^ F.expBits - 1) * 2 ^ F.fracBits := by
  have := Nat.mul_le_mul_right (2 ^ F.fracBits) (Nat.succ_le_of_lt hex)
  rw [Nat.succ_mul] at this
  omega

/-- The value of a finite pattern put together from its fields. -/
theorem value_of_fields (neg : Bool) {ex fr : Nat} (hfr : fr < 2 ^ F.fracBits) (hex : ex < 2 ^ F.expBits - 1) :
    F.value (F.signed neg (ex * 2 ^ F.fracBits + fr)) =
      if ex = 0 then if fr = 0 then .zero neg else .fin (negIf neg ((fr : Rat) * pow2 F.qmin))
      else .fin (negIf neg (((2 ^ F.fracBits + fr : Nat) : Rat) * pow2 (F.qmin + (ex - 1 : Nat)))) := by
  have hk := fields_lt_inf hfr hex
  obtain ⟨hfrac, hexp⟩ := signed_fields (F := F) neg (lt_of_lt_inf hk)
  have hmod : (ex * 2 ^ F.fracBits + fr) % 2 ^ F.fracBits = fr := by
    rw [Nat.mul_comm, Nat.mul_add_mod, Nat.mod_eq_of_lt hfr]
  have hdiv : (ex * 2 ^ F.fracBits + fr) / 2 ^ F.fracBits = ex := by
    rw [Nat.mul_comm, Nat.mul_add_div (Nat.two_pow_pos _), Nat.div_eq_of_lt hfr, Nat.add_zero]
  rw [value_eq, hfrac, hexp, signed_msb neg (lt_of_lt_inf hk), hmod, hdiv, if_neg hex.ne]

/-- A packed number has its own value: a significand of `p` bits without its leading one is the fraction field, and a carry
out of it is the next exponent's leading one. -/
theorem value_pack {q : Int} {k : Nat} (h : Packs F q k) (neg : Bool) (hk : k ≠ 0) :
    F.value (F.pack neg q k) = .fin (negIf neg (k * pow2 q)) := by
  obtain ⟨hq, hwidth, hnormal, hfinite⟩ := h
  obtain ⟨j, rfl⟩ := Int.le.dest hq
  have hj : (F.qmin + j - F.qmin).toNat = j := by omega
  have hcarry : 2 ^ (F.fracBits + 1) = 2 ^ F.fracBits + 2 ^ F.fracBits := by rw [pow_succ, mul_two]
  have h2 := one_lt_two_pow_expBits F
  rw [Fmt.pack, hj]
  rw [hj] at hfinite
  obtain hsub | hlead := lt_or_ge k (2 ^ F.fracBits)
  · obtain rfl : j = 0 := by omega
    have h0 : 0 < 2 ^ F.expBits - 1 := by omega
    rw [value_of_fields neg hsub h0, if_pos rfl, if_neg hk]
    simp
  · obtain ⟨fr, rfl⟩ := Nat.exists_eq_add_of_le hlead
    obtain hfr | hfr := lt_or_ge fr (2 ^ F.fracBits)
    · have hsum : j * 2 ^ F.fracBits + (2 ^ F.fracBits + fr) = (j + 1) * 2 ^ F.fracBits + fr := by ring
      have hex : j + 1 < 2 ^ F.expBits - 1 :=
        Nat.lt_of_mul_lt_mul_right ((Nat.le_add_right _ fr).trans_lt (hsum ▸ hfinite))
      rw [hsum, value_of_fields neg hfr hex, if_neg (Nat.succ_ne_zero j), Nat.add_sub_cancel]
    · obtain rfl : fr = 2 ^ F.fracBits := by omega
      have hsum : j * 2 ^ F.fracBits + (2 ^ F.fracBits + 2 ^ F.fracBits) = (j + 2) * 2 ^ F.fracBits + 0 := by ring
      have hex : j + 2 < 2 ^ F.expBits - 1 := Nat.lt_of_mul_lt_mul_right (hsum ▸ hfinite)
      rw [hsum, value_of_fields neg (Nat.two_pow_pos _) hex, if_neg (Nat.succ_ne_zero _), Nat.add_zero]
      have hquantum : F.qmin + ((j + 2 - 1 : Nat) : Int) = 1 + (F.qmin + j) := by omega
      rw [hquantum, pow2_add, ← mul_assoc]
      congr 3
      push_cast
      rw [pow2_eq_zpow, zpow_one, mul_two]

/-- The significand zero, which only the smallest quantum allows, packs to a zero. -/
theorem value_pack_isRat {q : Int} {k : Nat} (h : Packs F q k) (neg : Bool) :
    (F.value (F.pack neg q k)).isRat (negIf neg (k * pow2 q)) := by
  obtain rfl | hk := eq_or_ne k 0
  · obtain rfl : q = F.qmin := h.normal.resolve_left (Nat.two_pow_pos _).not_ge
    have hpack : F.pack neg F.qmin 0 = F.zero neg := by simp [Fmt.pack, Fmt.zero]
    rw [hpack, value_zero]
    cases neg <;> simp [FVal.isRat, negIf]
  · rw [value_pack h neg hk]
    rfl

theorem pack_msb {q : Int} {k : Nat} (h : Packs F q k) (neg : Bool) : (F.pack neg q k).msb = neg :=
  signed_msb neg (lt_of_lt_inf h.finite)

/-- A finite pattern is the packed one of its value. -/
theorem exists_pack_of_value {b : BitVec F.width} {v : Rat} (h : F.value b = .fin v) :
    ∃ q k, Packs F q k ∧ k ≠ 0 ∧ k < 2 ^ (F.fracBits + 1) ∧ b = F.pack b.msb q k ∧ v = negIf b.msb (k * pow2 q) := by
  have hb := eq_signed b
  have hfr : b.toNat % 2 ^ F.fracBits < 2 ^ F.fracBits := Nat.mod_lt _ (Nat.two_pow_pos _)
  have hex : b.toNat / 2 ^ F.fracBits % 2 ^ F.expBits < 2 ^ F.expBits := Nat.mod_lt _ (Nat.two_pow_pos _)
  rw [value_eq] at h
  generalize b.toNat % 2 ^ F.fracBits = fr at *
  generalize b.toNat / 2 ^ F.fracBits % 2 ^ F.expBits = ex at *
  have hcarry : 2 ^ (F.fracBits + 1) = 2 ^ F.fracBits + 2 ^ F.fracBits := by rw [pow_succ, mul_two]
  split_ifs at h with hinf hfrac hsub hfrac
  · obtain rfl := FVal.fin.inj h
    subst hsub
    have hzero : (F.qmin - F.qmin).toNat * 2 ^ F.fracBits + fr = 0 * 2 ^ F.fracBits + fr := by simp
    refine ⟨F.qmin, fr, ⟨le_rfl, by omega, .inr rfl, ?_⟩, hfrac, by omega, by rwa [Fmt.pack, hzero], rfl⟩
    exact hzero ▸ fields_lt_inf hfr (by omega)
  · obtain rfl := FVal.fin.inj h
    obtain ⟨j, rfl⟩ := Nat.exists_eq_add_of_le' (Nat.one_le_iff_ne_zero.2 hsub)
    have hsum : (F.qmin + (j + 1 - 1 : Nat) - F.qmin).toNat * 2 ^ F.fracBits + (2 ^ F.fracBits + fr) =
        (j + 1) * 2 ^ F.fracBits + fr := by
      rw [Nat.add_sub_cancel, add_sub_cancel_left, Int.toNat_natCast]
      ring
    refine ⟨F.qmin + (j + 1 - 1 : Nat), 2 ^ F.fracBits + fr, ⟨by omega, by omega, .inl (by omega), ?_⟩, by omega,
      by omega, by rwa [Fmt.pack, hsum], rfl⟩
    exact hsum ▸ fields_lt_inf hfr (by omega)

end Values

end Sys2Proof.Proofs

/-!
# Rounding to a format (R274)

What `round` answers in each of the three cases of R274 (overflow, normal, subnormal), that what it packs can be packed, and
so which value and flags the result has. A representable value falls into the case of its own pattern, exactly.
-/
namespace Sys2Proof.Proofs

open Sys2Proof.Machine Sys2Proof.Laws

/-! ### Which numbers can be packed -/

section Packing

variable {F : Fmt} {q : Int} {k : Nat}

theorem two_zpow_lt_iff {d e : Int} : (2 : Real) ^ d < 2 ^ e ↔ d < e := zpow_lt_zpow_iff_right₀ one_lt_two

theorem natCast_two_pow (n : Nat) : ((2 ^ n : Nat) : Real) = (2 : Real) ^ (n : Int) := by
  rw [zpow_natCast]
  exact_mod_cast rfl

/-- A number of `p` bits, or a subnormal one, is packed when it is below `2^(emax+1)`. -/
theorem packs_of_lt (hq : F.qmin ≤ q) (hwidth : k ≤ 2 ^ (F.fracBits + 1)) (hnormal : 2 ^ F.fracBits ≤ k ∨ q = F.qmin)
    (hlt : (k : Real) * 2 ^ q < 2 ^ (F.emax + 1)) : Packs F q k := by
  refine ⟨hq, hwidth, hnormal, ?_⟩
  have hQ := two_pow_expBits F
  have hcarry : 2 ^ (F.fracBits + 1) = 2 * 2 ^ F.fracBits := pow_succ' 2 _
  have hE := one_lt_two_pow_expBits F
  have hqmin := qmin_eq F
  have hemin := emin_eq F
  obtain ⟨j, rfl⟩ := Int.le.dest hq
  have hj : (F.qmin + j - F.qmin).toNat = j := by omega
  have hP := Nat.two_pow_pos F.fracBits
  rw [hj]
  obtain hlead | hsub := hnormal
  · have hexp : F.fracBits + (F.qmin + j) < F.emax + 1 := by
      rw [← two_zpow_lt_iff, zpow_add₀ two_ne_zero, ← natCast_two_pow]
      refine lt_of_le_of_lt ?_ hlt
      gcongr
    obtain hlast | hbelow : j + 3 = 2 ^ F.expBits ∨ j + 4 ≤ 2 ^ F.expBits := by omega
    · have hk : k < 2 * 2 ^ F.fracBits := by
        have htop : F.emax + 1 = ((F.fracBits + 1 : Nat) : Int) + (F.qmin + j) := by push_cast; omega
        rw [htop, zpow_add₀ two_ne_zero ((F.fracBits + 1 : Nat) : Int), ← natCast_two_pow, hcarry] at hlt
        exact_mod_cast lt_of_mul_lt_mul_right hlt (by positivity : (0 : Real) ≤ 2 ^ (F.qmin + j))
      rw [← hlast, Nat.add_sub_assoc (by decide), Nat.add_mul]
      exact Nat.add_lt_add_left hk _
    · calc j * 2 ^ F.fracBits + k < j * 2 ^ F.fracBits + 3 * 2 ^ F.fracBits := by omega
        _ = (j + 3) * 2 ^ F.fracBits := by ring
        _ ≤ (2 ^ F.expBits - 1) * 2 ^ F.fracBits := Nat.mul_le_mul_right _ (by omega)
  · obtain rfl : j = 0 := by omega
    calc 0 * 2 ^ F.fracBits + k < 3 * 2 ^ F.fracBits := by omega
      _ ≤ (2 ^ F.expBits - 1) * 2 ^ F.fracBits := Nat.mul_le_mul_right _ (by omega)

/-- A packed number is below `2^(emax+1)`. -/
theorem Packs.lt (h : Packs F q k) (hk : k < 2 ^ (F.fracBits + 1)) : (k : Real) * 2 ^ q < 2 ^ (F.emax + 1) := by
  obtain ⟨hq, -, hnormal, hfinite⟩ := h
  have hQ := two_pow_expBits F
  have hqmin := qmin_eq F
  have hemin := emin_eq F
  have hemax := emax_bounds F
  obtain ⟨j, rfl⟩ := Int.le.dest hq
  have hj : (F.qmin + j - F.qmin).toNat = j := by omega
  rw [hj] at hfinite
  have hexp : ((F.fracBits + 1 : Nat) : Int) + (F.qmin + j) ≤ F.emax + 1 := by
    obtain hlead | hsub := hnormal
    · have : j + 1 < 2 ^ F.expBits - 1 := by
        refine Nat.lt_of_mul_lt_mul_right (a := 2 ^ F.fracBits) (lt_of_le_of_lt ?_ hfinite)
        rw [Nat.succ_mul]
        omega
      push_cast
      omega
    · push_cast
      omega
  calc (k : Real) * 2 ^ (F.qmin + j) < ((2 ^ (F.fracBits + 1) : Nat) : Real) * 2 ^ (F.qmin + j) := by gcongr
    _ = 2 ^ (((F.fracBits + 1 : Nat) : Int) + (F.qmin + j)) := by
      rw [natCast_two_pow, zpow_add₀ two_ne_zero ((F.fracBits + 1 : Nat) : Int)]
    _ ≤ 2 ^ (F.emax + 1) := zpow_le_zpow_right₀ one_le_two hexp

end Packing

/-! ### The three cases of R274 -/

section Rounding

variable {F : Fmt} {x : Exact} {r : Real}

/-- The quantum of the rounding with unbounded exponent range (R274). -/
def quantum (F : Fmt) (x : Exact) : Int := x.log2 - F.prec + 1

/-- The result rounded with unbounded exponent range (R274). -/
noncomputable def unbounded (F : Fmt) (m : RMode) (x : Exact) : Real :=
  (x.roundTo m (quantum F x)).1 * 2 ^ quantum F x

theorem quantum_eq (F : Fmt) (x : Exact) : quantum F x = x.log2 - F.fracBits := by
  rw [quantum, prec_eq]
  ring

theorem log2_add_one (F : Fmt) (x : Exact) : ((F.fracBits + 1 : Nat) : Int) + quantum F x = x.log2 + 1 := by
  rw [quantum_eq]
  push_cast
  ring

/-- The magnitude that the model compares is that of the unbounded result. -/
theorem magnitude_cast (F : Fmt) (m : RMode) (x : Exact) :
    ((((x.roundTo m (quantum F x)).1.natAbs : Rat) * pow2 (quantum F x) : Rat) : Real) = |unbounded F m x| := by
  rw [unbounded, abs_mul, abs_of_pos (show (0 : Real) < 2 ^ quantum F x by positivity)]
  push_cast [pow2_cast, Nat.cast_natAbs]
  rfl

theorem round_of_overflow {m : RMode} (h : 2 ^ (F.emax + 1) ≤ |unbounded F m x|) :
    F.round m x = (F.overflow m x.neg, flagOF ||| flagNX) := by
  rw [← magnitude_cast, ← pow2_le_iff] at h
  exact if_pos h

theorem round_of_normal {m : RMode} (h : |unbounded F m x| < 2 ^ (F.emax + 1)) (he : F.emin ≤ x.log2) :
    F.round m x = (F.pack x.neg (quantum F x) (x.roundTo m (quantum F x)).1.natAbs,
      nxIf (x.roundTo m (quantum F x)).2) := by
  rw [← magnitude_cast, ← lt_pow2_iff] at h
  exact (if_neg h.not_ge).trans (if_pos he)

theorem round_of_subnormal {m : RMode} (h : |unbounded F m x| < 2 ^ (F.emax + 1)) (he : x.log2 < F.emin) :
    F.round m x = (F.pack x.neg F.qmin (x.roundTo m F.qmin).1.natAbs,
      if (x.roundTo m F.qmin).2 then
        (if |unbounded F m x| < 2 ^ F.emin then flagUF ||| flagNX else flagNX) else flagsNone) := by
  simp only [← magnitude_cast, ← lt_pow2_iff] at h ⊢
  exact (if_neg h.not_ge).trans (if_neg he.not_ge)

/-- Before rounding the significand has exactly `p` bits. -/
theorem abs_div_quantum_bounds (hx : x.isReal r) :
    ((2 ^ F.fracBits : Nat) : Real) ≤ |r / 2 ^ quantum F x| ∧
      |r / 2 ^ quantum F x| < ((2 ^ (F.fracBits + 1) : Nat) : Real) := by
  have hpos : (0 : Real) < 2 ^ quantum F x := by positivity
  have hlow : F.fracBits + quantum F x = x.log2 := by rw [quantum_eq]; ring
  rw [abs_div, abs_of_pos hpos, le_div_iff₀ hpos, div_lt_iff₀ hpos, natCast_two_pow, natCast_two_pow,
    ← zpow_add₀ two_ne_zero, ← zpow_add₀ two_ne_zero, hlow, log2_add_one]
  exact log2_bounds hx

/-- After rounding the significand has `p` bits or is a carry out of them. -/
theorem roundTo_quantum_bounds (hx : x.isReal r) (m : RMode) :
    2 ^ F.fracBits ≤ (x.roundTo m (quantum F x)).1.natAbs ∧
      (x.roundTo m (quantum F x)).1.natAbs ≤ 2 ^ (F.fracBits + 1) := by
  obtain ⟨hle, hlt⟩ := abs_div_quantum_bounds (F := F) hx
  have hchooses := roundTo_chooses hx m (quantum F x)
  exact ⟨(natAbs_of_chooses hchooses _).1 hle, (natAbs_of_chooses hchooses _).2 hlt.le⟩

/-- Rounding leaves the exact result's binade by at most a carry. -/
theorem unbounded_le (hx : x.isReal r) (m : RMode) : |unbounded F m x| ≤ 2 ^ (x.log2 + 1) := by
  rw [← magnitude_cast, ← log2_add_one F, zpow_add₀ two_ne_zero, ← natCast_two_pow]
  push_cast [pow2_cast]
  have := (roundTo_quantum_bounds (F := F) hx m).2
  gcongr
  exact_mod_cast this

theorem unbounded_lt_of_log2_lt (hx : x.isReal r) (m : RMode) (he : x.log2 < F.emax) :
    |unbounded F m x| < 2 ^ (F.emax + 1) :=
  (unbounded_le hx m).trans_lt (two_zpow_lt_iff.2 (by omega))

/-- Below the normal numbers the significand over the smallest quantum has fewer than `p` bits, but for a carry. -/
theorem roundTo_qmin_le (hx : x.isReal r) (m : RMode) (he : x.log2 < F.emin) :
    (x.roundTo m F.qmin).1.natAbs ≤ 2 ^ F.fracBits := by
  have hpos : (0 : Real) < 2 ^ F.qmin := by positivity
  refine (natAbs_of_chooses (roundTo_chooses hx m F.qmin) _).2 ?_
  rw [abs_div, abs_of_pos hpos, div_le_iff₀ hpos, natCast_two_pow, ← zpow_add₀ two_ne_zero]
  exact (log2_bounds hx).2.le.trans (zpow_le_zpow_right₀ one_le_two (by rw [qmin_eq]; omega))

/-- The unbounded result is packed unless it overflows or is below the normal numbers. -/
theorem packs_unbounded (hx : x.isReal r) {m : RMode} (h : |unbounded F m x| < 2 ^ (F.emax + 1))
    (he : F.emin ≤ x.log2) : Packs F (quantum F x) (x.roundTo m (quantum F x)).1.natAbs := by
  obtain ⟨hlow, hhigh⟩ := roundTo_quantum_bounds (F := F) hx m
  refine packs_of_lt (by rw [quantum_eq, qmin_eq]; omega) hhigh (.inl hlow) ?_
  rw [← magnitude_cast] at h
  push_cast [pow2_cast] at h
  exact_mod_cast h

/-- What is rounded below the normal numbers is packed. -/
theorem packs_subnormal (hx : x.isReal r) (m : RMode) (he : x.log2 < F.emin) :
    Packs F F.qmin (x.roundTo m F.qmin).1.natAbs := by
  have hle := roundTo_qmin_le hx m he
  refine packs_of_lt le_rfl (hle.trans (Nat.pow_le_pow_right two_pos (Nat.le_succ _))) (.inr rfl) ?_
  calc (((x.roundTo m F.qmin).1.natAbs : Nat) : Real) * 2 ^ F.qmin ≤ ((2 ^ F.fracBits : Nat) : Real) * 2 ^ F.qmin := by
        gcongr
    _ = 2 ^ (F.fracBits + F.qmin) := by rw [natCast_two_pow, zpow_add₀ two_ne_zero]
    _ < 2 ^ (F.emax + 1) := two_zpow_lt_iff.2 (by have := qmin_eq F; have := emin_eq F; have := emax_bounds F; omega)

/-- The signed magnitude is the chosen multiple. -/
theorem negIf_roundTo (hx : x.isReal r) (m : RMode) (q : Int) :
    ((negIf x.neg ((x.roundTo m q).1.natAbs * pow2 q) : Rat) : Real) = (x.roundTo m q).1 * 2 ^ q := by
  rw [roundTo_sign hx m q, neg_eq_decide hx]
  by_cases hr : r < 0
  · simp [negIf, hr]
  · simp [negIf, hr]

/-- `roundTo` is inexact exactly where the chosen multiple of the quantum differs from the exact result. -/
theorem roundTo_snd (hx : x.isReal r) (m : RMode) (q : Int) :
    (x.roundTo m q).2 = decide ((x.roundTo m q).1 * (2 : Real) ^ q ≠ r) := by
  have hpos : (2 : Real) ^ q ≠ 0 := by positivity
  rw [Bool.eq_iff_iff, roundTo_inexact hx m q, decide_eq_true_iff, Ne, eq_div_iff hpos]

theorem overflow_eq (F : Fmt) (m : RMode) (r : Real) :
    F.overflow m (decide (r < 0)) = match m with
      | .rne => F.inf (decide (r < 0))
      | .rmm => F.inf (decide (r < 0))
      | .rtz => F.maxFinite (decide (r < 0))
      | .rdn => if r < 0 then F.inf true else F.maxFinite false
      | .rup => if r < 0 then F.maxFinite true else F.inf false := by
  cases m with
  | rne | rmm | rtz => rfl
  | rdn | rup => by_cases hr : r < 0 <;> simp [Fmt.overflow, hr]

/-- In the normal range the result is the unbounded one, inexact where that differs from the exact result (R274 (2)). -/
theorem round_normal (hx : x.isReal r) {m : RMode} (h : |unbounded F m x| < 2 ^ (F.emax + 1)) (he : F.emin ≤ x.log2) :
    (∃ v : Rat, F.value (F.round m x).1 = .fin v ∧ (v : Real) = unbounded F m x) ∧
      (F.round m x).2 = nxIf (decide (unbounded F m x ≠ r)) := by
  have hne : (x.roundTo m (quantum F x)).1.natAbs ≠ 0 :=
    ((Nat.two_pow_pos _).trans_le (roundTo_quantum_bounds (F := F) hx m).1).ne'
  rw [round_of_normal h he, roundTo_snd hx]
  exact ⟨⟨_, value_pack (packs_unbounded hx h he) _ hne, negIf_roundTo hx m _⟩, rfl⟩

theorem unbounded_lt_of_subnormal (hx : x.isReal r) (m : RMode) (he : x.log2 < F.emin) :
    |unbounded F m x| < 2 ^ (F.emax + 1) :=
  unbounded_lt_of_log2_lt hx m (by have := emin_eq F; have := emax_bounds F; omega)

/-- Below it the result is the chosen multiple of the smallest quantum, with the sign of the exact result also when that is
zero (R274 (3)). -/
theorem round_subnormal (hx : x.isReal r) (m : RMode) (he : x.log2 < F.emin) :
    (F.round m x).1.msb = decide (r < 0) ∧
      (∃ v : Rat, (F.value (F.round m x).1).isRat v ∧ (v : Real) = (x.roundTo m F.qmin).1 * 2 ^ F.qmin) ∧
      (F.round m x).2 = if (x.roundTo m F.qmin).1 * (2 : Real) ^ F.qmin ≠ r then
        (if |unbounded F m x| < 2 ^ F.emin then flagUF ||| flagNX else flagNX) else flagsNone := by
  have hpacks := packs_subnormal hx m he
  rw [round_of_subnormal (unbounded_lt_of_subnormal hx m he) he, roundTo_snd hx]
  refine ⟨(pack_msb hpacks _).trans (neg_eq_decide hx), ⟨_, value_pack_isRat hpacks _, negIf_roundTo hx m _⟩, ?_⟩
  simp only [decide_eq_true_eq]

end Rounding

/-- Settles O48: the exponent and the integer are those of `log2` and `roundTo`, and each of the three cases of R274 is a
case of `round`. -/
theorem roundingFollowsR274 : Obligations.RoundingFollowsR274 := by
  intro F m x r hx
  obtain ⟨hle, hlt⟩ := log2_bounds hx
  refine ⟨x.log2, (x.roundTo m (quantum F x)).1, hle, hlt, roundTo_chooses hx m _, fun hover => ?overflow,
    fun hlt he => ?normal, fun he => ?subnormal⟩
  case overflow =>
    rw [round_of_overflow hover, neg_eq_decide hx]
    exact ⟨rfl, overflow_eq F m r⟩
  case normal =>
    obtain ⟨hvalue, hflags⟩ := round_normal hx hlt he
    exact ⟨hvalue, fun heq => hflags.trans (congrArg nxIf (decide_eq_false (not_not.2 heq))),
      fun hne => hflags.trans (congrArg nxIf (decide_eq_true hne))⟩
  case subnormal =>
    obtain ⟨hsign, hvalue, hflags⟩ := round_subnormal hx m he
    exact ⟨(x.roundTo m F.qmin).1, roundTo_chooses hx m _, hsign, hvalue,
      fun heq => hflags.trans (if_neg (not_not.2 heq)),
      fun hne htiny => hflags.trans ((if_pos hne).trans (if_pos htiny)),
      fun hne hbig => hflags.trans ((if_pos hne).trans (if_neg hbig.not_gt))⟩

/-! ### Representable values (R274, R330) -/

section Representable

variable {F : Fmt}

/-- The bounds of R274 determine the exponent. -/
theorem log2_eq_of_bounds {x : Exact} {r : Real} (hx : x.isReal r) {e : Int} (hle : (2 : Real) ^ e ≤ |r|)
    (hlt : |r| < (2 : Real) ^ (e + 1)) : x.log2 = e := by
  obtain ⟨hle', hlt'⟩ := log2_bounds hx
  have h1 := two_zpow_lt_iff.1 (hle.trans_lt hlt')
  have h2 := two_zpow_lt_iff.1 (hle'.trans_lt hlt)
  omega

/-- The signed significand of a packed number. -/
def significand (neg : Bool) (k : Nat) : Int := if neg then -(k : Int) else k

@[simp] theorem natAbs_significand (neg : Bool) (k : Nat) : (significand neg k).natAbs = k := by
  cases neg <;> simp [significand]

theorem negIf_cast (neg : Bool) (k : Nat) (q : Int) :
    ((negIf neg (k * pow2 q) : Rat) : Real) = significand neg k * 2 ^ q := by
  cases neg <;> simp [negIf, significand]

/-- A packed number other than zero as an exact result: its sign, its magnitude and its multiple of the quantum. -/
theorem isReal_negIf {neg : Bool} {k : Nat} {q : Int} (hk : k ≠ 0) :
    (Exact.rat (negIf neg (k * pow2 q))).isReal (significand neg k * 2 ^ q) ∧
      (Exact.rat (negIf neg (k * pow2 q))).neg = neg ∧ |(significand neg k : Real) * 2 ^ q| = k * 2 ^ q := by
  have hpos : 0 < (k : Rat) * pow2 q := mul_pos (by exact_mod_cast Nat.pos_of_ne_zero hk) (pow2_pos q)
  have hk' : (significand neg k : Real) ≠ 0 := by
    rw [Int.cast_ne_zero, ← Int.natAbs_ne_zero, natAbs_significand]
    exact hk
  refine ⟨⟨negIf_cast neg k q, mul_ne_zero hk' (by positivity)⟩, ?_, ?_⟩
  · cases neg
    · exact decide_eq_false hpos.not_gt
    · exact decide_eq_true (neg_neg_of_pos hpos)
  · rw [abs_mul, abs_of_pos (show (0 : Real) < 2 ^ q by positivity), ← Int.cast_abs, Int.abs_eq_natAbs,
      natAbs_significand, Int.cast_natCast]

/-- Under every mode the value of a pattern rounds to that pattern: over the quantum of the pattern it is its own significand,
so nothing is rounded. -/
theorem round_of_value (m : RMode) {b : BitVec F.width} {v : Rat} (h : F.value b = .fin v) :
    F.round m (.rat v) = (b, flagsNone) := by
  obtain ⟨q, k, hpacks, hk, hlt, hb, rfl⟩ := exists_pack_of_value h
  obtain ⟨hx, hneg, habs⟩ := isReal_negIf (neg := b.msb) (q := q) hk
  have hover := hpacks.lt hlt
  have hround : (Exact.rat (negIf b.msb (k * pow2 q))).roundTo m q = (significand b.msb k, false) :=
    roundTo_of_eq hx m (mul_div_cancel_right₀ _ (by positivity))
  obtain hlead | hsub := le_or_gt (2 ^ F.fracBits) k
  · have hlog : (Exact.rat (negIf b.msb (k * pow2 q))).log2 = F.fracBits + q := by
      refine log2_eq_of_bounds hx ?_ ?_
      · rw [habs, zpow_add₀ two_ne_zero, ← natCast_two_pow]
        gcongr
      · rw [habs, add_right_comm, zpow_add₀ two_ne_zero, ← Nat.cast_succ, ← natCast_two_pow]
        gcongr
    have hq : quantum F (.rat (negIf b.msb (k * pow2 q))) = q := by rw [quantum_eq, hlog]; ring
    have hu : |unbounded F m (.rat (negIf b.msb (k * pow2 q)))| < 2 ^ (F.emax + 1) := by
      rw [unbounded, hq, hround, habs]
      exact hover
    have he : F.emin ≤ (Exact.rat (negIf b.msb (k * pow2 q))).log2 := by
      have := hpacks.quantum
      have := qmin_eq F
      omega
    rw [round_of_normal hu he, hq, hround, hneg, natAbs_significand, ← hb]
    rfl
  · obtain rfl : q = F.qmin := hpacks.normal.resolve_left hsub.not_ge
    have he : (Exact.rat (negIf b.msb (k * pow2 F.qmin))).log2 < F.emin := by
      refine two_zpow_lt_iff.1 ((log2_bounds hx).1.trans_lt ?_)
      have hemin : F.emin = F.fracBits + F.qmin := by rw [qmin_eq]; ring
      rw [habs, hemin, zpow_add₀ two_ne_zero, ← natCast_two_pow]
      gcongr
    rw [round_of_subnormal (unbounded_lt_of_subnormal hx m he) he, hround, hneg, natAbs_significand, ← hb]
    rfl

/-- Patterns with one value are the same pattern, but for NaNs. -/
theorem eq_of_value_eq {a b : BitVec F.width} (h : F.value a = F.value b) (hnan : (F.value a).isNaN = false) : a = b := by
  cases ha : F.value a with
  | nan => simp [ha, FVal.isNaN] at hnan
  | inf n => exact (eq_inf_of_value ha).1.trans (eq_inf_of_value (h.symm.trans ha)).1.symm
  | zero n => exact (eq_zero_of_value ha).1.trans (eq_zero_of_value (h.symm.trans ha)).1.symm
  | fin v =>
    exact congrArg Prod.fst ((round_of_value .rne ha).symm.trans (round_of_value .rne (h.symm.trans ha)))

/-- A finite pattern that is not a zero has a value other than zero, with the sign of the pattern. -/
theorem value_fin_ne_zero {b : BitVec F.width} {v : Rat} (h : F.value b = .fin v) :
    v ≠ 0 ∧ decide (v < 0) = b.msb := by
  obtain ⟨q, k, -, hk, -, -, rfl⟩ := exists_pack_of_value h
  obtain ⟨⟨hcast, hne⟩, hneg, -⟩ := isReal_negIf (neg := b.msb) (q := q) hk
  exact ⟨by rw [← hcast] at hne; exact_mod_cast hne, hneg⟩

/-- The sign of a value is the sign bit of its pattern, but for NaNs. -/
theorem value_sign {b : BitVec F.width} (hnan : (F.value b).isNaN = false) : (F.value b).sign = b.msb := by
  cases hb : F.value b with
  | nan => simp [hb, FVal.isNaN] at hnan
  | inf n => exact (eq_inf_of_value hb).2.symm
  | zero n => exact (eq_zero_of_value hb).2.symm
  | fin v => exact (value_fin_ne_zero hb).2

theorem isReal_intCast {z : Int} (hz : z ≠ 0) : (Exact.rat z).isReal z :=
  ⟨Rat.cast_intCast z, Int.cast_ne_zero.2 hz⟩

/-- The exponent of an integer other than zero of at most `n` bits. -/
theorem log2_intCast {z : Int} (hz : z ≠ 0) {n : Nat} (hlt : z.natAbs < 2 ^ n) :
    0 ≤ (Exact.rat z).log2 ∧ (Exact.rat z).log2 < n := by
  obtain ⟨hle', hlt'⟩ := log2_bounds (isReal_intCast hz)
  rw [← Int.cast_abs, Int.abs_eq_natAbs, Int.cast_natCast] at hle' hlt'
  have hone : (2 : Real) ^ (0 : Int) ≤ z.natAbs := by
    rw [zpow_zero]
    exact_mod_cast Nat.one_le_iff_ne_zero.2 (Int.natAbs_ne_zero.2 hz)
  have hn : (z.natAbs : Real) < 2 ^ (n : Int) := by
    rw [← natCast_two_pow]
    exact_mod_cast hlt
  exact ⟨Int.lt_add_one_iff.1 (two_zpow_lt_iff.1 (hone.trans_lt hlt')), two_zpow_lt_iff.1 (hle'.trans_lt hn)⟩

/-- An integer of at most `p` bits rounds to its own value, without a flag: its quantum divides it. -/
theorem round_intCast (m : RMode) {z : Int} (hz : z ≠ 0) (hlt : z.natAbs < 2 ^ F.prec) :
    F.value (F.round m (.rat z)).1 = .fin z ∧ (F.round m (.rat z)).2 = flagsNone := by
  have hx := isReal_intCast hz
  obtain ⟨hlow, hhigh⟩ := log2_intCast hz hlt
  have hprec := prec_eq F
  have hemax := fracBits_lt_emax F
  have hemin := emin_eq F
  have hq := quantum_eq F (.rat z)
  obtain ⟨j, hj⟩ : ∃ j : Nat, quantum F (.rat z) = -(j : Int) := ⟨(-quantum F (.rat z)).toNat, by omega⟩
  have hround : (Exact.rat z).roundTo m (quantum F (.rat z)) = (z * 2 ^ j, false) := by
    refine roundTo_of_eq hx m ?_
    rw [hj, zpow_neg, div_inv_eq_mul, zpow_natCast]
    push_cast
    rfl
  have hu : unbounded F m (.rat z) = z := by
    rw [unbounded, hround, hj, zpow_neg, zpow_natCast]
    push_cast
    exact mul_inv_cancel_right₀ (by positivity) _
  obtain ⟨⟨v, hvalue, hv⟩, hflags⟩ :=
    round_normal (F := F) hx (unbounded_lt_of_log2_lt hx m (by omega)) (by omega)
  rw [hu] at hv hflags
  have hv : v = z := by exact_mod_cast hv
  exact ⟨hv ▸ hvalue, hflags.trans (congrArg nxIf (decide_eq_false (not_not.2 rfl)))⟩

theorem value_one (F : Fmt) : F.value (F.signed false ((2 ^ (F.expBits - 1) - 1) * 2 ^ F.fracBits)) = .fin 1 := by
  cases F <;> decide +kernel

/-- The exact product with 1 is the operand. -/
theorem value_mul_one {v : FVal} (h : v.isNaN = false) : v.mul (.fin 1) = some v := by
  cases v with
  | nan => cases h
  | inf n | zero n =>
    have hpos : decide ((1 : Rat) < 0) = false := rfl
    simp [FVal.mul, FVal.sign, hpos]
  | fin v => simp [FVal.mul]

/-- A pattern other than a NaN is what its own value rounds to. -/
theorem roundValue_value (m : RMode) {b : BitVec F.width} (h : (F.value b).isNaN = false) :
    F.roundValue m (F.value b) = (b, flagsNone) := by
  cases hb : F.value b with
  | nan => simp [hb, FVal.isNaN] at h
  | inf n => exact congrArg (·, flagsNone) (eq_inf_of_value hb).1.symm
  | zero n => exact congrArg (·, flagsNone) (eq_zero_of_value hb).1.symm
  | fin v => exact round_of_value m hb

theorem mul_one_pattern (m : RMode) {b : BitVec F.width} (h : (F.value b).isNaN = false) :
    F.mul m b (F.signed false ((2 ^ (F.expBits - 1) - 1) * 2 ^ F.fracBits)) = (b, flagsNone) := by
  have hone : (FVal.fin 1).isNaN = false := rfl
  rw [Fmt.mul, value_one, h, hone, if_neg (by decide), value_mul_one h]
  exact roundValue_value m h

/-- A finite pattern whose value is an integer in range converts to it exactly. -/
theorem toInt_of_value_intCast (m : RMode) {b : BitVec F.width} {z lo hi : Int} (hb : F.value b = .fin z) (hz : z ≠ 0)
    (hlo : lo ≤ z) (hhi : z ≤ hi) : F.toInt m b lo hi = (z, flagsNone) := by
  have hround : (Exact.rat z).roundTo m 0 = (z, false) := roundTo_of_eq (isReal_intCast hz) m (by simp)
  simp only [Fmt.toInt, hb, hround, if_neg hlo.not_gt, if_neg hhi.not_gt]
  rfl

end Representable

/-- Settles O49: a pattern rounds to itself by `round_of_value`; the other two parts round the value of a pattern, and an
integer of fewer than 53 bits. -/
theorem representableValuesRoundToThemselves : Obligations.RepresentableValuesRoundToThemselves := by
  refine ⟨fun F m b v h => round_of_value m h, fun F m b h => mul_one_pattern m h, fun m m' z hlow hhigh => ?_⟩
  by_cases hz : z = 0
  · have hofInt : Fmt.f64.ofInt m z = (Fmt.f64.zero false, flagsNone) := if_pos hz
    have hzero : Fmt.f64.toInt m' (Fmt.f64.zero false) (-2 ^ 63) (2 ^ 63 - 1) = (0, flagsNone) := by
      simp only [Fmt.toInt, value_zero]
    rw [hofInt, hz]
    exact ⟨rfl, hzero⟩
  · have hofInt : Fmt.f64.ofInt m z = Fmt.f64.round m (.rat z) := if_neg hz
    have hprec : 2 ^ 32 < 2 ^ Fmt.f64.prec := by decide
    obtain ⟨hvalue, hflags⟩ := round_intCast (F := .f64) m hz (by omega)
    rw [hofInt]
    exact ⟨hflags, toInt_of_value_intCast m' hvalue hz (by omega) (by omega)⟩

end Sys2Proof.Proofs

/-!
# The arithmetic of values (R273, R274, R277 to R284, R290)

First the operations on values that are not NaNs: sums, products and quotients of numbers, of zeros and of infinities. Then
each operation on patterns is one of these on the values of its operands, or a NaN.
-/
namespace Sys2Proof.Proofs

open Sys2Proof.Machine Sys2Proof.Laws

/-! ### Kinds of values -/

section Kinds

variable {a : FVal} {v : Rat}

/-- A value that is the number `v` is a zero, where `v` is, or the finite number. -/
theorem isRat_cases (h : a.isRat v) : (∃ n, a = .zero n ∧ v = 0) ∨ a = .fin v := by
  cases a with
  | nan | inf => cases h
  | zero n => exact .inl ⟨n, rfl, h⟩
  | fin w => exact .inr (congrArg FVal.fin h)

theorem isRat_of_isNumber (h : a.isNumber = true) : ∃ v, a.isRat v := by
  cases a with
  | nan | inf => cases h
  | zero n => exact ⟨0, rfl⟩
  | fin w => exact ⟨w, rfl⟩

theorem isNumber_of_isRat (h : a.isRat v) : a.isNumber = true := by
  obtain ⟨n, rfl, -⟩ | rfl := isRat_cases h <;> rfl

theorem isNaN_of_isRat (h : a.isRat v) : a.isNaN = false := by
  cases a with
  | nan => cases h
  | inf | zero | fin => rfl

theorem isNaN_of_isNumber (h : a.isNumber = true) : a.isNaN = false := by
  cases a with
  | nan => cases h
  | inf | zero | fin => rfl

theorem isNaN_of_isNonzero (h : a.isNonzero = true) : a.isNaN = false := by
  cases a with
  | nan => cases h
  | inf | zero | fin => rfl

theorem eq_inf_of_isInf (h : a.isInf = true) : ∃ n, a = .inf n := by
  cases a with
  | inf n => exact ⟨n, rfl⟩
  | nan | zero | fin => cases h

theorem isNaN_of_isInf (h : a.isInf = true) : a.isNaN = false := by
  obtain ⟨n, rfl⟩ := eq_inf_of_isInf h
  rfl

theorem isNaN_of_eq_inf {n : Bool} (h : a = .inf n) : a.isNaN = false := h ▸ rfl

theorem isNaN_of_eq_zero {n : Bool} (h : a = .zero n) : a.isNaN = false := h ▸ rfl

theorem isNaN_of_eq_fin (h : a = .fin v) : a.isNaN = false := h ▸ rfl

theorem isNumber_negIf (neg : Bool) : (a.negIf neg).isNumber = a.isNumber := by cases a <;> rfl

theorem isNaN_of_isInf_or_isNonzero {b : FVal}
    (h : a.isInf = true ∧ b.isNonzero = true ∨ a.isNonzero = true ∧ b.isInf = true) :
    a.isNaN = false ∧ b.isNaN = false := by
  obtain ⟨ha, hb⟩ | ⟨ha, hb⟩ := h
  · exact ⟨isNaN_of_isInf ha, isNaN_of_isNonzero hb⟩
  · exact ⟨isNaN_of_isNonzero ha, isNaN_of_isInf hb⟩

theorem isSNaN_of_not_isNaN (h : a.isNaN = false) : a.isSNaN = false := by
  cases a with
  | nan => cases h
  | inf | zero | fin => rfl

theorem negIf_eq_zero (neg : Bool) (v : Rat) : negIf neg v = 0 ↔ v = 0 := by
  cases neg
  · exact Iff.rfl
  · exact neg_eq_zero

theorem negIf_zero (neg : Bool) : negIf neg 0 = 0 := (negIf_eq_zero neg 0).2 rfl

theorem isRat_negIf (h : a.isRat v) (neg : Bool) : (a.negIf neg).isRat (negIf neg v) := by
  cases a with
  | nan | inf => cases h
  | zero n =>
    obtain rfl : v = 0 := h
    cases neg
    · rfl
    · exact neg_zero
  | fin w =>
    obtain rfl : w = v := h
    rfl

end Kinds

/-! ### Sums (R281) -/

section Sums

variable {F : Fmt} {m : RMode} {a b : FVal} {v w : Rat}

/-- A sum of numbers that is not zero is rounded once. -/
theorem addValues_of_ne_zero (ha : a.isRat v) (hb : b.isRat w) (h : v + w ≠ 0) :
    F.addValues m a b = F.round m (.rat (v + w)) := by
  obtain ⟨n, rfl, rfl⟩ | rfl := isRat_cases ha <;> obtain ⟨n', rfl, rfl⟩ | rfl := isRat_cases hb
  · exact absurd (add_zero 0) h
  all_goals exact if_neg h

/-- An exact zero sum has its own sign, unless it is a sum of zeros of one sign (R274). -/
theorem addValues_of_eq_zero (ha : a.isRat v) (hb : b.isRat w) (h : v + w = 0) (hz : ∀ n, a = .zero n → b ≠ .zero n) :
    F.addValues m a b = F.zeroSum m := by
  obtain ⟨n, rfl, rfl⟩ | rfl := isRat_cases ha <;> obtain ⟨n', rfl, rfl⟩ | rfl := isRat_cases hb
  · exact if_neg fun hn => hz n rfl (congrArg FVal.zero hn.symm)
  all_goals exact if_pos h

theorem addValues_zero_same (n : Bool) : F.addValues m (.zero n) (.zero n) = (F.zero n, flagsNone) := if_pos rfl

theorem addValues_inf_left (n : Bool) (h : b = .inf n ∨ b.isNumber = true) :
    F.addValues m (.inf n) b = (F.inf n, flagsNone) := by
  obtain rfl | h := h
  · exact if_pos rfl
  · cases b with
    | nan | inf => cases h
    | zero | fin => rfl

theorem addValues_inf_right (n : Bool) (h : a = .inf n ∨ a.isNumber = true) :
    F.addValues m a (.inf n) = (F.inf n, flagsNone) := by
  obtain rfl | h := h
  · exact if_pos rfl
  · cases a with
    | nan | inf => cases h
    | zero | fin => rfl

theorem addValues_inf_opposite (n : Bool) : F.addValues m (.inf n) (.inf !n) = F.nanResult true :=
  if_neg (by cases n <;> decide)

end Sums

/-! ### Products and quotients (R283, R284) -/

section Products

variable {a b : FVal} {v w : Rat}

/-- A product of numbers is the finite one, or a zero of the sign of the product where a factor is a zero. -/
theorem mul_of_isRat (ha : a.isRat v) (hb : b.isRat w) :
    (v * w = 0 ∧ a.mul b = some (.zero (a.sign != b.sign))) ∨
      (a = .fin v ∧ b = .fin w ∧ a.mul b = some (.fin (v * w))) := by
  obtain ⟨n, rfl, rfl⟩ | rfl := isRat_cases ha <;> obtain ⟨n', rfl, rfl⟩ | rfl := isRat_cases hb
  · exact .inl ⟨zero_mul 0, rfl⟩
  · exact .inl ⟨zero_mul w, rfl⟩
  · exact .inl ⟨mul_zero v, rfl⟩
  · exact .inr ⟨rfl, rfl, rfl⟩

/-- A product of numbers is a number. -/
theorem exists_mul_isRat (ha : a.isRat v) (hb : b.isRat w) : ∃ p, a.mul b = some p ∧ p.isRat (v * w) := by
  obtain ⟨hzero, hmul⟩ | ⟨-, -, hmul⟩ := mul_of_isRat ha hb
  · exact ⟨_, hmul, hzero⟩
  · exact ⟨_, hmul, rfl⟩

/-- A product with an infinity and without a zero is the infinity of the sign of the product. -/
theorem mul_of_isInf (h : a.isInf = true ∧ b.isNonzero = true ∨ a.isNonzero = true ∧ b.isInf = true) :
    a.mul b = some (.inf (a.sign != b.sign)) := by
  obtain ⟨ha, hb⟩ | ⟨ha, hb⟩ := h
  · obtain ⟨n, rfl⟩ := eq_inf_of_isInf ha
    cases b with
    | nan | zero => cases hb
    | inf | fin => rfl
  · obtain ⟨n, rfl⟩ := eq_inf_of_isInf hb
    cases a with
    | nan | zero => cases ha
    | inf | fin => rfl

theorem mul_of_zero (h : (∃ n, a = .zero n) ∧ b.isNumber = true ∨ a.isNumber = true ∧ ∃ n, b = .zero n) :
    a.mul b = some (.zero (a.sign != b.sign)) := by
  obtain ⟨⟨n, rfl⟩, hb⟩ | ⟨ha, n, rfl⟩ := h
  · cases b with
    | nan | inf => cases hb
    | zero | fin => rfl
  · cases a with
    | nan | inf => cases ha
    | zero | fin => rfl

theorem mul_inf_zero {n n' : Bool} (h : a = .inf n ∧ b = .zero n' ∨ a = .zero n ∧ b = .inf n') : a.mul b = none := by
  obtain ⟨rfl, rfl⟩ | ⟨rfl, rfl⟩ := h <;> rfl

theorem div_inf_of_isNumber (ha : a.isInf = true) (hb : b.isNumber = true) :
    a.div b = some (.inf (a.sign != b.sign), flagsNone) := by
  obtain ⟨n, rfl⟩ := eq_inf_of_isInf ha
  cases b with
  | nan | inf => cases hb
  | zero | fin => rfl

/-- A zero by anything but a zero, and a number by an infinity, is a zero of the sign of the quotient. -/
theorem div_eq_zero (h : (∃ n, a = .zero n) ∧ b.isNonzero = true ∨ a.isNumber = true ∧ ∃ n, b = .inf n) :
    a.div b = some (.zero (a.sign != b.sign), flagsNone) := by
  obtain ⟨⟨n, rfl⟩, hb⟩ | ⟨ha, n, rfl⟩ := h
  · cases b with
    | nan | zero => cases hb
    | inf | fin => rfl
  · cases a with
    | nan | inf => cases ha
    | zero | fin => rfl

theorem div_invalid {n n' : Bool} (h : a = .zero n ∧ b = .zero n' ∨ a = .inf n ∧ b = .inf n') : a.div b = none := by
  obtain ⟨rfl, rfl⟩ | ⟨rfl, rfl⟩ := h <;> rfl

/-- A quotient signals by itself nothing but the division of a finite number other than zero by a zero (R284). -/
theorem div_flags {q : FVal} {fl : FFlags} (h : a.div b = some (q, fl)) :
    fl = flagsNone ∨ ∃ v n, a = .fin v ∧ b = .zero n := by
  cases a with
  | nan => cases h
  | inf n =>
    cases b with
    | nan | inf => cases h
    | zero | fin => cases h; exact .inl rfl
  | zero n =>
    cases b with
    | nan | zero => cases h
    | inf | fin => cases h; exact .inl rfl
  | fin v =>
    cases b with
    | nan => cases h
    | inf | fin => cases h; exact .inl rfl
    | zero n => exact .inr ⟨v, n, rfl, rfl⟩

end Products

/-! ### The flags of a rounding (R272, R274) -/

section Flags

/-- The sets of flags that a rounding can signal: none, or NX alone or with OF or UF. -/
def roundingFlags : List FFlags := [flagsNone, flagNX, flagOF ||| flagNX, flagUF ||| flagNX]

theorem nxIf_mem (c : Bool) : nxIf c ∈ roundingFlags := by cases c <;> decide

theorem round_flags_mem (F : Fmt) (m : RMode) (x : Exact) : (F.round m x).2 ∈ roundingFlags := by
  unfold Fmt.round
  dsimp only
  split_ifs <;> dsimp only
  · decide
  · exact nxIf_mem _
  all_goals decide

theorem roundValue_flags_mem (F : Fmt) (m : RMode) (v : FVal) : (F.roundValue m v).2 ∈ roundingFlags := by
  cases v with
  | fin v => exact round_flags_mem F m (.rat v)
  | nan | inf | zero => exact List.mem_cons_self

/-- No rounding signals a division by zero. -/
theorem and_flagDZ_of_mem : ∀ fl ∈ roundingFlags, fl &&& flagDZ = 0 := by decide

end Flags

/-! ### The operations on patterns -/

section Operations

variable {F : Fmt} {m : RMode} {a b c : BitVec F.width}

theorem isNaN_or (ha : (F.value a).isNaN = false) (hb : (F.value b).isNaN = false) :
    ¬((F.value a).isNaN || (F.value b).isNaN) = true := by
  rw [ha, hb]
  decide

theorem add_eq (ha : (F.value a).isNaN = false) (hb : (F.value b).isNaN = false) :
    F.add m a b = F.addValues m (F.value a) (F.value b) := if_neg (isNaN_or ha hb)

theorem sub_eq (ha : (F.value a).isNaN = false) (hb : (F.value b).isNaN = false) :
    F.sub m a b = F.addValues m (F.value a) ((F.value b).negIf true) := if_neg (isNaN_or ha hb)

theorem mul_eq {p : FVal} (ha : (F.value a).isNaN = false) (hb : (F.value b).isNaN = false)
    (hp : (F.value a).mul (F.value b) = some p) : F.mul m a b = F.roundValue m p := by
  rw [Fmt.mul, if_neg (isNaN_or ha hb), hp]

theorem div_eq {p : FVal} {fl : FFlags} (ha : (F.value a).isNaN = false) (hb : (F.value b).isNaN = false)
    (hp : (F.value a).div (F.value b) = some (p, fl)) :
    F.div m a b = ((F.roundValue m p).1, (F.roundValue m p).2 ||| fl) := by
  rw [Fmt.div, if_neg (isNaN_or ha hb), hp]

theorem div_eq_of_no_flag {p : FVal} (ha : (F.value a).isNaN = false) (hb : (F.value b).isNaN = false)
    (hp : (F.value a).div (F.value b) = some (p, flagsNone)) : F.div m a b = F.roundValue m p := by
  rw [div_eq ha hb hp]
  exact Prod.ext rfl (BitVec.or_zero)

theorem fma_eq {p : FVal} {np nc : Bool} (ha : (F.value a).isNaN = false) (hb : (F.value b).isNaN = false)
    (hc : (F.value c).isNaN = false) (hp : (F.value a).mul (F.value b) = some p) :
    F.fma m a b c np nc = F.addValues m (p.negIf np) ((F.value c).negIf nc) := by
  simp only [Fmt.fma, if_neg (isNaN_or ha hb), hp, hc]
  rfl

theorem mul_invalid (ha : (F.value a).isNaN = false) (hb : (F.value b).isNaN = false)
    (hp : (F.value a).mul (F.value b) = none) : F.mul m a b = F.nanResult true := by
  rw [Fmt.mul, if_neg (isNaN_or ha hb), hp]

theorem div_invalid_eq (ha : (F.value a).isNaN = false) (hb : (F.value b).isNaN = false)
    (hp : (F.value a).div (F.value b) = none) : F.div m a b = F.nanResult true := by
  rw [Fmt.div, if_neg (isNaN_or ha hb), hp]

theorem fma_invalid {np nc : Bool} (ha : (F.value a).isNaN = false) (hb : (F.value b).isNaN = false)
    (hp : (F.value a).mul (F.value b) = none) : F.fma m a b c np nc = F.nanResult true := by
  simp only [Fmt.fma, if_neg (isNaN_or ha hb), hp]

/-- A NaN addend is what makes a fused result a NaN when the product is valid. -/
theorem fma_nan_addend {np nc : Bool} (ha : (F.value a).isNaN = false) (hb : (F.value b).isNaN = false)
    (hp : (F.value a).mul (F.value b) ≠ none) (hc : (F.value c).isNaN = true) :
    F.fma m a b c np nc =
      F.nanResult ((F.value a).isSNaN || (F.value b).isSNaN || (F.value c).isSNaN) := by
  obtain ⟨p, hp⟩ := Option.ne_none_iff_exists'.1 hp
  simp only [Fmt.fma, if_neg (isNaN_or ha hb), hp, if_pos hc, isSNaN_of_not_isNaN ha, isSNaN_of_not_isNaN hb,
    Bool.false_or]

/-- The sign of the product or quotient of two patterns, from their values. -/
theorem sign_bne_sign (ha : (F.value a).isNaN = false) (hb : (F.value b).isNaN = false) :
    ((F.value a).sign != (F.value b).sign) = (a.msb != b.msb) := by
  rw [value_sign ha, value_sign hb]

/-- Only a finite number other than zero by zero signals DZ (R284). -/
theorem exists_of_div_divideByZero (h : (F.div m a b).2 &&& flagDZ ≠ 0) :
    ∃ v n, F.value a = .fin v ∧ F.value b = .zero n := by
  have hnan (c : Bool) : nvIf c &&& flagDZ = 0 := by cases c <;> rfl
  unfold Fmt.div at h
  split_ifs at h
  · exact absurd (hnan _) h
  · split at h
    · exact absurd (hnan _) h
    · next p fl hp =>
      refine (div_flags hp).resolve_left fun hfl => h ?_
      rw [hfl]
      exact (congrArg (· &&& flagDZ) BitVec.or_zero).trans (and_flagDZ_of_mem _ (roundValue_flags_mem F m p))

end Operations

/-! ### Special operands -/

section Special

variable {F : Fmt} {m : RMode} {a b c : BitVec F.width} {n np nc : Bool} {v w : Rat}

theorem add_inf (ha : F.value a = .inf n) (hb : F.value b = .inf n ∨ (F.value b).isNumber = true) :
    F.add m a b = (F.inf n, flagsNone) ∧ F.add m b a = (F.inf n, flagsNone) := by
  have hna := isNaN_of_eq_inf ha
  have hnb : (F.value b).isNaN = false := hb.elim isNaN_of_eq_inf isNaN_of_isNumber
  rw [add_eq hna hnb, add_eq hnb hna, ha]
  exact ⟨addValues_inf_left n hb, addValues_inf_right n hb⟩

theorem sub_inf_left (ha : F.value a = .inf n) (hb : F.value b = .inf (!n) ∨ (F.value b).isNumber = true) :
    F.sub m a b = (F.inf n, flagsNone) := by
  have hnb : (F.value b).isNaN = false := hb.elim isNaN_of_eq_inf isNaN_of_isNumber
  have hneg : (F.value b).negIf true = .inf n ∨ ((F.value b).negIf true).isNumber = true :=
    hb.imp (fun h => by rw [h, FVal.negIf, Bool.bne_true, Bool.not_not]) fun h => (isNumber_negIf true).trans h
  rw [sub_eq (isNaN_of_eq_inf ha) hnb, ha, addValues_inf_left n hneg]

theorem sub_inf_right (ha : (F.value a).isNumber = true) (hb : F.value b = .inf n) :
    F.sub m a b = (F.inf (!n), flagsNone) := by
  rw [sub_eq (isNaN_of_isNumber ha) (isNaN_of_eq_inf hb), hb, FVal.negIf, Bool.bne_true, addValues_inf_right _ (.inr ha)]

theorem add_exact_zero (ha : (F.value a).isRat v) (hb : (F.value b).isRat (-v))
    (hz : ∀ n, F.value a = .zero n → F.value b ≠ .zero n) : F.add m a b = F.zeroSum m := by
  rw [add_eq (isNaN_of_isRat ha) (isNaN_of_isRat hb), addValues_of_eq_zero ha hb (add_neg_cancel v) hz]

theorem sub_exact_zero (ha : (F.value a).isRat v) (hb : (F.value b).isRat v)
    (hz : ∀ n, F.value a = .zero n → F.value b ≠ .zero (!n)) : F.sub m a b = F.zeroSum m := by
  rw [sub_eq (isNaN_of_isRat ha) (isNaN_of_isRat hb)]
  refine addValues_of_eq_zero ha (isRat_negIf hb true) (add_neg_cancel v) fun n hn hneg => hz n hn ?_
  obtain ⟨k, hk, -⟩ | hk := isRat_cases hb
  · rw [hk, FVal.negIf, Bool.bne_true] at hneg
    rw [hk, ← FVal.zero.inj hneg, Bool.not_not]
  · rw [hk] at hneg
    cases hneg

theorem add_zeros (ha : F.value a = .zero n) (hb : F.value b = .zero n) : F.add m a b = (a, flagsNone) := by
  rw [add_eq (isNaN_of_eq_zero ha) (isNaN_of_eq_zero hb), ha, hb, addValues_zero_same, (eq_zero_of_value ha).1]

theorem sub_zeros (ha : F.value a = .zero n) (hb : F.value b = .zero (!n)) : F.sub m a b = (a, flagsNone) := by
  rw [sub_eq (isNaN_of_eq_zero ha) (isNaN_of_eq_zero hb), ha, hb, FVal.negIf, Bool.bne_true, Bool.not_not,
    addValues_zero_same, (eq_zero_of_value ha).1]

/-- A zero added to or taken from a number leaves it, by rounding its own value. -/
theorem add_zero_fin (ha : F.value a = .zero n) (hb : F.value b = .fin w) :
    F.add m a b = (b, flagsNone) ∧ F.add m b a = (b, flagsNone) ∧ F.sub m b a = (b, flagsNone) := by
  have hw := (value_fin_ne_zero hb).1
  have hna := isNaN_of_eq_zero ha
  have hnb := isNaN_of_eq_fin hb
  have hra (neg : Bool) : ((F.value a).negIf neg).isRat 0 := by rw [ha]; rfl
  have hra' : (F.value a).isRat 0 := by rw [ha]; rfl
  have hrb : (F.value b).isRat w := by rw [hb]; rfl
  have hsum : 0 + w = w := zero_add w
  have hsum' : w + 0 = w := add_zero w
  rw [add_eq hna hnb, add_eq hnb hna, sub_eq hnb hna, addValues_of_ne_zero hra' hrb (hsum.trans_ne hw),
    addValues_of_ne_zero hrb hra' (hsum'.trans_ne hw), addValues_of_ne_zero hrb (hra true) (hsum'.trans_ne hw), hsum, hsum',
    round_of_value m hb]
  exact ⟨rfl, rfl, rfl⟩

theorem mul_inf (h : (F.value a).isInf = true ∧ (F.value b).isNonzero = true ∨
      (F.value a).isNonzero = true ∧ (F.value b).isInf = true) :
    F.mul m a b = (F.inf (a.msb != b.msb), flagsNone) := by
  obtain ⟨hna, hnb⟩ := isNaN_of_isInf_or_isNonzero h
  rw [mul_eq hna hnb (mul_of_isInf h), sign_bne_sign hna hnb]
  rfl

theorem mul_zero_pattern (h : F.value a = .zero n ∧ (F.value b).isNumber = true ∨
      (F.value a).isNumber = true ∧ F.value b = .zero n) : F.mul m a b = (F.zero (a.msb != b.msb), flagsNone) := by
  have hnan : (F.value a).isNaN = false ∧ (F.value b).isNaN = false :=
    h.elim (fun h => ⟨isNaN_of_eq_zero h.1, isNaN_of_isNumber h.2⟩)
      fun h => ⟨isNaN_of_isNumber h.1, isNaN_of_eq_zero h.2⟩
  have hmul := mul_of_zero (h.imp (And.imp_left (⟨n, ·⟩)) (And.imp_right (⟨n, ·⟩)))
  rw [mul_eq hnan.1 hnan.2 hmul, sign_bne_sign hnan.1 hnan.2]
  rfl

theorem div_inf (ha : (F.value a).isInf = true) (hb : (F.value b).isNumber = true) :
    F.div m a b = (F.inf (a.msb != b.msb), flagsNone) := by
  have hna := isNaN_of_isInf ha
  have hnb := isNaN_of_isNumber hb
  rw [div_eq_of_no_flag hna hnb (div_inf_of_isNumber ha hb), sign_bne_sign hna hnb]
  rfl

theorem div_zero_pattern (h : F.value a = .zero n ∧ (F.value b).isNonzero = true ∨
      (F.value a).isNumber = true ∧ F.value b = .inf n) : F.div m a b = (F.zero (a.msb != b.msb), flagsNone) := by
  have hnan : (F.value a).isNaN = false ∧ (F.value b).isNaN = false :=
    h.elim (fun h => ⟨isNaN_of_eq_zero h.1, isNaN_of_isNonzero h.2⟩)
      fun h => ⟨isNaN_of_isNumber h.1, isNaN_of_eq_inf h.2⟩
  have hdiv := div_eq_zero (h.imp (And.imp_left (⟨n, ·⟩)) (And.imp_right (⟨n, ·⟩)))
  rw [div_eq_of_no_flag hnan.1 hnan.2 hdiv, sign_bne_sign hnan.1 hnan.2]
  rfl

theorem div_by_zero (ha : F.value a = .fin v) (hb : F.value b = .zero n) :
    F.div m a b = (F.inf (a.msb != b.msb), flagDZ) := by
  have hna := isNaN_of_eq_fin ha
  have hnb := isNaN_of_eq_zero hb
  have hdiv : (F.value a).div (F.value b) = some (.inf ((F.value a).sign != (F.value b).sign), flagDZ) := by
    rw [ha, hb]
    rfl
  rw [div_eq hna hnb hdiv, sign_bne_sign hna hnb]
  exact Prod.ext rfl BitVec.zero_or

/-- A root of a zero or of positive infinity is the operand (R290). -/
theorem sqrt_zero (ha : F.value a = .zero n) : F.sqrt m a = (a, flagsNone) := by
  simp only [Fmt.sqrt, ha]
  rw [← (eq_zero_of_value ha).1]

theorem sqrt_inf (ha : F.value a = .inf false) : F.sqrt m a = (a, flagsNone) := by
  simp only [Fmt.sqrt, ha]
  exact congrArg (·, flagsNone) (eq_inf_of_value ha).1.symm

/-- A fused sum whose product is infinite is that infinity, unless the addend is the opposite one. -/
theorem fma_inf_product (h : (F.value a).isInf = true ∧ (F.value b).isNonzero = true ∨
      (F.value a).isNonzero = true ∧ (F.value b).isInf = true) :
    ((F.value c).isNumber = true ∨ F.value c = .inf (((a.msb != b.msb) != np) != nc) →
      F.fma m a b c np nc = (F.inf ((a.msb != b.msb) != np), flagsNone)) ∧
    (F.value c = .inf (((a.msb != b.msb) != np) == nc) → F.fma m a b c np nc = (F.canonicalNaN, flagNV)) := by
  obtain ⟨hna, hnb⟩ := isNaN_of_isInf_or_isNonzero h
  have hmul := mul_of_isInf h
  rw [sign_bne_sign hna hnb] at hmul
  generalize hsp : ((a.msb != b.msb) != np) = sp
  have hp : (FVal.inf (a.msb != b.msb)).negIf np = .inf sp := congrArg FVal.inf hsp
  constructor
  · intro hc
    have hnc : (F.value c).isNaN = false := hc.elim isNaN_of_isNumber isNaN_of_eq_inf
    rw [fma_eq hna hnb hnc hmul, hp]
    refine addValues_inf_left sp (hc.symm.imp (fun h => ?_) fun h => (isNumber_negIf nc).trans h)
    rw [h, FVal.negIf, Bool.bne_assoc, bne_self_eq_false, Bool.bne_false]
  · intro hc
    have hopp : ((sp == nc) != nc) = !sp := by cases sp <;> cases nc <;> rfl
    rw [fma_eq hna hnb (isNaN_of_eq_inf hc) hmul, hp, hc, FVal.negIf, hopp]
    exact addValues_inf_opposite sp

theorem fma_inf_addend (ha : (F.value a).isNumber = true) (hb : (F.value b).isNumber = true)
    (hc : F.value c = .inf n) : F.fma m a b c np nc = (F.inf (n != nc), flagsNone) := by
  obtain ⟨v, hv⟩ := isRat_of_isNumber ha
  obtain ⟨w, hw⟩ := isRat_of_isNumber hb
  obtain ⟨p, hp, hrat⟩ := exists_mul_isRat hv hw
  rw [fma_eq (isNaN_of_isRat hv) (isNaN_of_isRat hw) (isNaN_of_eq_inf hc) hp, hc]
  exact addValues_inf_right _ (.inr ((isNumber_negIf np).trans (isNumber_of_isRat hrat)))

/-- A fused sum that is exactly zero: two zeros of one sign are that zero, every other one is an exact zero sum. -/
theorem fma_exact_zero {z : Rat} (ha : (F.value a).isRat v) (hb : (F.value b).isRat w) (hc : (F.value c).isRat z)
    (hsum : negIf np (v * w) + negIf nc z = 0) :
    F.fma m a b c np nc =
      if z = 0 ∧ ((a.msb != b.msb) != np) = (c.msb != nc) then (F.zero ((a.msb != b.msb) != np), flagsNone)
      else F.zeroSum m := by
  have hna := isNaN_of_isRat ha
  have hnb := isNaN_of_isRat hb
  have hnc := isNaN_of_isRat hc
  obtain ⟨hprod, hmul⟩ | ⟨ha', hb', hmul⟩ := mul_of_isRat ha hb
  · obtain rfl : z = 0 := by
      rw [hprod, negIf_zero, zero_add] at hsum
      exact (negIf_eq_zero nc z).1 hsum
    obtain ⟨k, hk, -⟩ | hfin := isRat_cases hc
    · rw [sign_bne_sign hna hnb] at hmul
      rw [fma_eq hna hnb hnc hmul, hk, (eq_zero_of_value hk).2]
      simp only [FVal.negIf, Fmt.addValues, true_and]
    · exact absurd rfl (value_fin_ne_zero hfin).1
  · have hprod : v * w ≠ 0 := mul_ne_zero (value_fin_ne_zero ha').1 (value_fin_ne_zero hb').1
    have hz : z ≠ 0 := by
      rintro rfl
      rw [negIf_zero, add_zero] at hsum
      exact hprod ((negIf_eq_zero np _).1 hsum)
    rw [fma_eq hna hnb hnc hmul, if_neg fun h => hz h.1]
    exact addValues_of_eq_zero rfl (isRat_negIf hc nc) hsum nofun

end Special

/-! ### Boxing (R27) -/

section Boxing

/-- The high half of a boxed single is all ones, and the single is the low half. -/
theorem box32_halves (v : BitVec 32) :
    (box32 v).extractLsb' 32 32 = BitVec.allOnes 32 ∧ (box32 v).extractLsb' 0 32 = v :=
  ⟨(BitVec.extractLsb'_append_eq_of_le (by decide)).trans BitVec.extractLsb'_eq_self,
    (BitVec.extractLsb'_append_eq_of_add_le (by decide)).trans BitVec.extractLsb'_eq_self⟩

theorem unbox32_box32 (v : BitVec 32) : unbox32 (box32 v) = v := by
  obtain ⟨hhigh, hlow⟩ := box32_halves v
  rw [unbox32, if_pos hhigh, hlow]

theorem unbox32_of_not_boxed {d : DWord} (h : d.toNat / 2 ^ 32 ≠ 2 ^ 32 - 1) : unbox32 d = 0x7fc00000 := by
  refine if_neg fun hhigh => h ?_
  have hd := d.isLt
  have := congrArg BitVec.toNat hhigh
  rw [BitVec.extractLsb'_toNat, Nat.shiftRight_eq_div_pow, BitVec.toNat_allOnes] at this
  omega

end Boxing

/-! ### The obligations on the arithmetic of patterns -/

/-- Settles O50: a NaN operand is the first case of every operation; the invalid operations are those whose sum, product or
quotient of values has none. -/
theorem naNOperandsGiveTheCanonicalNaN : Obligations.NaNOperandsGiveTheCanonicalNaN := by
  refine ⟨?operations, fun d h => unbox32_of_not_boxed h, unbox32_box32, by decide +kernel, by decide +kernel⟩
  intro F m a b c np nc va vb vc invalid
  refine ⟨fun h => ?nan, fun sig h => ?sqrtNaN, fun n n' h => ?infTimesZero, fun h => ?fmaNaN, fun n ha hb => ?infMinusInf,
    fun n ha hb => ?infSubInf, fun n n' h => ?divInvalid, fun v ha hv => ?sqrtNeg, fun ha => ?sqrtInf⟩
  case nan =>
    have hor := Bool.or_eq_true_iff.2 h
    exact ⟨if_pos hor, if_pos hor, if_pos hor, if_pos hor⟩
  case sqrtNaN =>
    have hva : F.value a = .nan sig := h
    simp only [Fmt.sqrt, hva]
    rfl
  case infTimesZero =>
    have hmul := mul_inf_zero h
    have hnan : va.isNaN = false ∧ vb.isNaN = false := by
      obtain ⟨ha, hb⟩ | ⟨ha, hb⟩ := h <;> rw [ha, hb] <;> exact ⟨rfl, rfl⟩
    exact ⟨mul_invalid hnan.1 hnan.2 hmul, fma_invalid hnan.1 hnan.2 hmul⟩
  case fmaNaN =>
    by_cases hab : va.isNaN = true ∨ vb.isNaN = true
    · exact if_pos (Bool.or_eq_true_iff.2 hab)
    · obtain ⟨hc, hmul⟩ := h.resolve_left hab
      obtain ⟨ha, hb⟩ := not_or.1 hab
      exact fma_nan_addend (Bool.eq_false_of_not_eq_true ha) (Bool.eq_false_of_not_eq_true hb) hmul hc
  case infMinusInf =>
    have hva : F.value a = .inf n := ha
    have hvb : F.value b = .inf (!n) := hb
    rw [add_eq (by rw [hva]; rfl) (by rw [hvb]; rfl), hva, hvb]
    exact addValues_inf_opposite n
  case infSubInf =>
    have hva : F.value a = .inf n := ha
    have hvb : F.value b = .inf n := hb
    rw [sub_eq (by rw [hva]; rfl) (by rw [hvb]; rfl), hva, hvb, FVal.negIf, Bool.bne_true]
    exact addValues_inf_opposite n
  case divInvalid =>
    have hnan : va.isNaN = false ∧ vb.isNaN = false := by
      obtain ⟨ha, hb⟩ | ⟨ha, hb⟩ := h <;> rw [ha, hb] <;> exact ⟨rfl, rfl⟩
    exact div_invalid_eq hnan.1 hnan.2 (div_invalid h)
  case sqrtNeg =>
    have hva : F.value a = .fin v := ha
    simp only [Fmt.sqrt, hva, if_pos hv]
    rfl
  case sqrtInf =>
    have hva : F.value a = .inf true := ha
    simp only [Fmt.sqrt, hva]
    rfl

/-- Settles O59: numbers are not NaNs, so each operation is the one on values, whose exact result is then rounded. -/
theorem finiteArithmeticRoundsTheExactResult : Obligations.FiniteArithmeticRoundsTheExactResult := by
  intro F m a b c np nc va vb vc
  refine ⟨fun v w ha hb h => ?add, fun v w ha hb h => ?sub, fun v w ha hb hv hw => ?mulDiv, fun v ha hv => ?sqrt,
    fun v w z ha hb hc h => ?fma⟩
  case add => rw [add_eq (isNaN_of_isRat ha) (isNaN_of_isRat hb), addValues_of_ne_zero ha hb h]
  case sub =>
    rw [sub_eq (isNaN_of_isRat ha) (isNaN_of_isRat hb),
      addValues_of_ne_zero ha (isRat_negIf hb true) (sub_eq_add_neg v w ▸ h), sub_eq_add_neg]
    rfl
  case mulDiv =>
    have hna := isNaN_of_isRat ha
    have hnb := isNaN_of_isRat hb
    obtain ⟨hzero, -⟩ | ⟨hva, hvb, hmul⟩ := mul_of_isRat ha hb
    · exact absurd hzero (mul_ne_zero hv hw)
    · have hdiv : va.div vb = some (.fin (v / w), flagsNone) := by rw [hva, hvb]; rfl
      exact ⟨mul_eq hna hnb hmul, div_eq_of_no_flag hna hnb hdiv⟩
  case sqrt =>
    have hva : F.value a = .fin v := ha
    simp only [Fmt.sqrt, hva, if_neg hv.not_gt]
  case fma =>
    obtain ⟨p, hp, hrat⟩ := exists_mul_isRat ha hb
    rw [fma_eq (isNaN_of_isRat ha) (isNaN_of_isRat hb) (isNaN_of_isRat hc) hp]
    exact addValues_of_ne_zero (isRat_negIf hrat np) (isRat_negIf hc nc) h

/-- Settles O51: one lemma for each kind of special operands; what is left over is an exact zero sum. -/
theorem specialOperandsOfTheArithmetic : Obligations.SpecialOperandsOfTheArithmetic := by
  intro F m a b c np nc va vb vc exactZero sg sp
  exact ⟨fun _ => add_inf, fun _ => sub_inf_left, fun _ => sub_inf_right, fun _ => add_exact_zero, fun _ => sub_exact_zero,
    fun _ => add_zeros, fun _ => sub_zeros, fun _ _ => add_zero_fin, mul_inf, fun _ => mul_zero_pattern, div_inf,
    fun _ => div_zero_pattern, fun _ _ => div_by_zero, exists_of_div_divideByZero, fun _ => sqrt_zero, sqrt_inf,
    fma_inf_product, fun _ => fma_inf_addend, fun _ _ _ => fma_exact_zero⟩

end Sys2Proof.Proofs

/-!
# Comparing, selecting, classifying and converting to integers (R288 to R295, R299, R301)

The numerical order of values, once for numbers and once with infinities; `min`, `max` and the three comparisons by that
order; the class of a pattern by its fields; and the rounded integer that a conversion saturates.
-/
namespace Sys2Proof.Proofs

open Sys2Proof.Machine Sys2Proof.Laws

/-! ### The order of values -/

section Order

variable {a b : FVal} {v w : Rat}

theorem lt_of_isRat (ha : a.isRat v) (hb : b.isRat w) : a.lt b = decide (v < w) := by
  obtain ⟨n, rfl, rfl⟩ | rfl := isRat_cases ha <;> obtain ⟨n', rfl, rfl⟩ | rfl := isRat_cases hb
  · exact (decide_eq_false (lt_irrefl (0 : Rat))).symm
  all_goals rfl

theorem lt_inf_of_isNumber (ha : a.isNumber = true) (n : Bool) : a.lt (.inf n) = !n ∧ (FVal.inf n).lt a = n := by
  cases a with
  | nan | inf => cases ha
  | zero | fin => exact ⟨rfl, rfl⟩

theorem lt_asymm_value (h : a.lt b = true) : b.lt a = false := by
  cases ha : a.isNumber <;> cases hb : b.isNumber
  · cases a with
    | nan => cases h
    | zero | fin => cases ha
    | inf n =>
      cases b with
      | nan => cases h
      | zero | fin => cases hb
      | inf n' => revert h; cases n <;> cases n' <;> decide
  · cases a with
    | nan => cases h
    | zero | fin => cases ha
    | inf n =>
      obtain ⟨h1, h2⟩ := lt_inf_of_isNumber hb n
      rw [h2] at h
      rw [h1, h]
      rfl
  · cases b with
    | nan => cases a <;> cases h
    | zero | fin => cases hb
    | inf n =>
      obtain ⟨h1, h2⟩ := lt_inf_of_isNumber ha n
      rw [h1] at h
      rw [h2]
      simpa using h
  · obtain ⟨v, hv⟩ := isRat_of_isNumber ha
    obtain ⟨w, hw⟩ := isRat_of_isNumber hb
    rw [lt_of_isRat hv hw] at h
    rw [lt_of_isRat hw hv]
    exact decide_eq_false (of_decide_eq_true h).not_gt

end Order

/-! ### FMIN and FMAX (R288, R289) -/

section MinMax

variable {F : Fmt} {a b : BitVec F.width}

/-- With operands in numerical order the smaller is the minimum and the greater the maximum, whichever comes first. -/
theorem min_max_of_lt (ha : (F.value a).isNaN = false) (hb : (F.value b).isNaN = false)
    (h : (F.value a).lt (F.value b) = true) :
    (F.min a b).1 = a ∧ (F.max a b).1 = b ∧ (F.min b a).1 = a ∧ (F.max b a).1 = b := by
  have hnot := lt_asymm_value h
  simp [Fmt.min, Fmt.max, ha, hb, h, hnot]

theorem min_max_self (ha : (F.value a).isNaN = false) : (F.min a a).1 = a ∧ (F.max a a).1 = a := by
  simp [Fmt.min, Fmt.max, ha]

theorem min_max_of_zeros (ha : F.value a = .zero true) (hb : F.value b = .zero false) :
    (F.min a b).1 = a ∧ (F.max a b).1 = b ∧ (F.min b a).1 = a ∧ (F.max b a).1 = b := by
  have hsa := (eq_zero_of_value ha).2
  have hsb := (eq_zero_of_value hb).2
  have hna := isNaN_of_eq_zero ha
  have hnb := isNaN_of_eq_zero hb
  have hlt : (F.value a).lt (F.value b) = false ∧ (F.value b).lt (F.value a) = false := by
    rw [ha, hb]
    exact ⟨rfl, rfl⟩
  simp [Fmt.min, Fmt.max, hna, hnb, hlt, hsa, hsb]

/-- A single NaN operand loses against the other operand, and two give the canonical NaN (R288, R289). -/
theorem min_max_of_isNaN :
    ((F.value a).isNaN = true → (F.value b).isNaN = true →
      (F.min a b).1 = F.canonicalNaN ∧ (F.max a b).1 = F.canonicalNaN) ∧
    ((F.value a).isNaN = true → (F.value b).isNaN = false → (F.min a b).1 = b ∧ (F.max a b).1 = b) ∧
    ((F.value a).isNaN = false → (F.value b).isNaN = true → (F.min a b).1 = a ∧ (F.max a b).1 = a) :=
  ⟨fun ha hb => by simp [Fmt.min, Fmt.max, ha, hb], fun ha hb => by simp [Fmt.min, Fmt.max, ha, hb],
    fun ha hb => by simp [Fmt.min, Fmt.max, ha, hb]⟩

end MinMax

/-! ### FLE, FLT and FEQ (R291 to R293) -/

section Comparisons

variable {F : Fmt} {a b : BitVec F.width}

/-- The three comparisons of patterns that are not NaNs, by the order of their values alone. -/
theorem comparisons_eq (ha : (F.value a).isNaN = false) (hb : (F.value b).isNaN = false) :
    F.le a b = (!(F.value b).lt (F.value a), flagsNone) ∧ F.lt a b = ((F.value a).lt (F.value b), flagsNone) ∧
      F.eq a b = (!(F.value a).lt (F.value b) && !(F.value b).lt (F.value a), flagsNone) := by
  have hquiet : nvIf ((F.value a).isSNaN || (F.value b).isSNaN) = flagsNone := by
    rw [isSNaN_of_not_isNaN ha, isSNaN_of_not_isNaN hb]
    rfl
  refine ⟨?_, if_neg (isNaN_or ha hb), ?_⟩
  · rw [Fmt.le, if_neg (isNaN_or ha hb), FVal.numEq, ha, hb]
    cases hlt : (F.value a).lt (F.value b)
    · simp
    · simp [lt_asymm_value hlt]
  · rw [Fmt.eq, hquiet, FVal.numEq, ha, hb]
    simp

theorem comparisons_of_isNaN (h : (F.value a).isNaN = true ∨ (F.value b).isNaN = true) :
    F.le a b = (false, flagNV) ∧ F.lt a b = (false, flagNV) ∧
      F.eq a b = (false, nvIf ((F.value a).isSNaN || (F.value b).isSNaN)) := by
  refine ⟨if_pos (Bool.or_eq_true_iff.2 h), if_pos (Bool.or_eq_true_iff.2 h), ?_⟩
  obtain h | h := h <;> simp [Fmt.eq, FVal.numEq, h]

end Comparisons

/-! ### FCLASS (R299) -/

section Classes

variable {F : Fmt}

/-- The class of a finite number other than zero: its sign, and whether it is below the normal numbers. -/
theorem classOf_of_value {b : BitVec F.width} {neg : Bool} {u : Rat} (hu : 0 < u) (h : F.value b = .fin (negIf neg u)) :
    F.classOf b = if u < pow2 F.emin then if neg then 2 else 5 else if neg then 1 else 6 := by
  cases neg with
  | true => simp [Fmt.classOf, h, negIf, hu]
  | false => simp [Fmt.classOf, h, negIf, hu.not_gt]

/-- The class of a pattern is read off its fields. -/
theorem classOf_eq_fields (a : BitVec F.width) :
    F.classOf a =
      if a.toNat / 2 ^ F.fracBits % 2 ^ F.expBits = 2 ^ F.expBits - 1 then
        if a.toNat % 2 ^ F.fracBits = 0 then if a.msb then 0 else 7
        else if a.toNat % 2 ^ F.fracBits < 2 ^ (F.fracBits - 1) then 8 else 9
      else if a.toNat / 2 ^ F.fracBits % 2 ^ F.expBits = 0 then
        if a.toNat % 2 ^ F.fracBits = 0 then if a.msb then 3 else 4 else if a.msb then 2 else 5
      else if a.msb then 1 else 6 := by
  have hv := value_eq a
  have hfr : a.toNat % 2 ^ F.fracBits < 2 ^ F.fracBits := Nat.mod_lt _ (Nat.two_pow_pos _)
  have hemin : pow2 F.emin = (2 ^ F.fracBits : Nat) * pow2 F.qmin := by
    have hexp : F.emin = F.fracBits + F.qmin := by rw [qmin_eq]; ring
    rw [hexp, pow2_add, pow2_natCast]
    push_cast
    rfl
  generalize a.toNat % 2 ^ F.fracBits = fr at *
  generalize a.toNat / 2 ^ F.fracBits % 2 ^ F.expBits = ex at *
  by_cases hinf : ex = 2 ^ F.expBits - 1
  · rw [if_pos hinf] at hv ⊢
    by_cases hfrac : fr = 0
    · rw [if_pos hfrac] at hv ⊢
      simp only [Fmt.classOf, hv]
    · rw [if_neg hfrac] at hv ⊢
      simp only [Fmt.classOf, hv, decide_eq_true_eq]
  · rw [if_neg hinf] at hv ⊢
    by_cases hsub : ex = 0
    · rw [if_pos hsub] at hv ⊢
      by_cases hfrac : fr = 0
      · rw [if_pos hfrac] at hv ⊢
        simp only [Fmt.classOf, hv]
      · rw [if_neg hfrac] at hv ⊢
        have hpos : (0 : Rat) < fr := Nat.cast_pos.2 (Nat.pos_of_ne_zero hfrac)
        have htiny : (fr : Rat) * pow2 F.qmin < pow2 F.emin := by
          rw [hemin]
          exact mul_lt_mul_of_pos_right (Nat.cast_lt.2 hfr) (pow2_pos _)
        rw [classOf_of_value (mul_pos hpos (pow2_pos _)) hv, if_pos htiny]
    · rw [if_neg hsub] at hv ⊢
      have hpos : (0 : Rat) < (2 ^ F.fracBits + fr : Nat) := Nat.cast_pos.2 (by positivity)
      have hnormal : pow2 F.emin ≤ ((2 ^ F.fracBits + fr : Nat) : Rat) * pow2 (F.qmin + (ex - 1 : Nat)) := by
        rw [hemin]
        refine mul_le_mul (Nat.cast_le.2 (Nat.le_add_right _ _)) ?_ (pow2_pos _).le (Nat.cast_nonneg _)
        rw [pow2_eq_zpow, pow2_eq_zpow]
        exact zpow_le_zpow_right₀ one_le_two (by omega)
      rw [classOf_of_value (mul_pos hpos (pow2_pos _)) hv, if_neg hnormal.not_gt]

theorem classOf_le (a : BitVec F.width) : F.classOf a ≤ 9 := by
  rw [classOf_eq_fields]
  split_ifs <;> decide

end Classes

/-! ### Conversions to integers (R301) -/

section ToInt

variable {F : Fmt} {m : RMode} {a : BitVec F.width} {lo hi : Int}

/-- The sets of flags that a conversion to an integer can signal: none, NV alone or NX alone. -/
def conversionFlags : List FFlags := [flagsNone, flagNV, flagNX]

theorem not_nv_and_nx_of_mem : ∀ fl ∈ conversionFlags, ¬(fl &&& flagNV ≠ 0 ∧ fl &&& flagNX ≠ 0) := by decide

theorem toInt_flags_mem : (F.toInt m a lo hi).2 ∈ conversionFlags := by
  have hnx (c : Bool) : nxIf c ∈ conversionFlags := by cases c <;> decide
  have hnv : flagNV ∈ conversionFlags := by decide
  unfold Fmt.toInt
  split
  · exact hnv
  · exact hnv
  · exact List.mem_cons_self
  · dsimp only
    split_ifs
    · exact hnv
    · exact hnv
    · exact hnx _

/-- A conversion of a finite number saturates the integer that the mode chooses. -/
theorem toInt_of_value {v : Rat} (h : F.value a = .fin v) :
    ∃ n : Int, m.chooses v n ∧ F.toInt m a lo hi =
      if n < lo then (lo, flagNV) else if hi < n then (hi, flagNV) else (n, if (n : Rat) = v then flagsNone else flagNX) := by
  have hx : (Exact.rat v).isReal v := ⟨rfl, Rat.cast_ne_zero.2 (value_fin_ne_zero h).1⟩
  have hchooses := roundTo_chooses hx m 0
  have hsnd := roundTo_snd hx m 0
  rw [zpow_zero, div_one] at hchooses
  rw [zpow_zero, mul_one] at hsnd
  refine ⟨_, hchooses, ?_⟩
  have hnx : nxIf ((Exact.rat v).roundTo m 0).2 =
      if (((Exact.rat v).roundTo m 0).1 : Rat) = v then flagsNone else flagNX := by
    have hcast : (((Exact.rat v).roundTo m 0).1 : Real) ≠ v ↔ ¬(((Exact.rat v).roundTo m 0).1 : Rat) = v := by
      exact_mod_cast Iff.rfl
    rw [hsnd]
    split_ifs with heq
    · exact congrArg nxIf (decide_eq_false (hcast.not.2 (not_not.2 heq)))
    · exact congrArg nxIf (decide_eq_true (hcast.2 heq))
  simp only [Fmt.toInt, h, hnx]

end ToInt

end Sys2Proof.Proofs

/-!
# The floating-point instructions (R270 to R301, R321 to R324, R331 to R354, R371 to R376)

First how a meaning that ends in a floating-point write, or in a write with flags, completes; then operands and results as
bits and as numbers; then the statements of 46_rv32f.md about instructions.
-/
namespace Sys2Proof.Proofs

open Sys2Proof.Machine Sys2Proof.Laws

/-! ### How a meaning completes -/

section Completion

variable {s : State} {i : Instr}

/-- Accruing flags, writing a floating-point register and setting the pc changes nothing else. -/
theorem frame_wF_setPc (s : State) (fl : FFlags) (rd : FReg) (v : DWord) {n : Nat} (target : BitVec n) :
    Frame s (((s.orFlags fl).wF rd v).setPc target) none (some rd) [] :=
  ⟨rfl, rfl, rfl, fun _ _ => rX_toNat_congr rfl rfl _,
    fun _ hr => rF_wF_other (s.orFlags fl) (fun h => hr (congrArg some h)) v, fun _ _ => ⟨rfl, rfl⟩⟩

/-- Accruing flags, writing an integer register and setting the pc changes nothing else. -/
theorem frame_orFlags_wX_setPc (s : State) (fl : FFlags) (rd : XReg) {n m : Nat} (v : BitVec n) (target : BitVec m) :
    Frame s (((s.orFlags fl).wX rd v).setPc target) (some rd) none [] := by
  obtain ⟨hcfg, hstatus, hdraws, hx, hf, hbytes⟩ := frame_wX_setPc (s.orFlags fl) rd v target
  exact ⟨hcfg, hstatus, hdraws, hx, hf, hbytes⟩

theorem orFlags_none (s : State) : s.orFlags 0 = s := by simp [State.orFlags]

/-- A meaning that ends in a floating-point write with flags completes with both. -/
theorem writesF_of_finishF64Flags {rd : FReg} {r : DWord × FFlags} (hexec : exec i s = s.finishF64Flags rd r) :
    WritesF s i rd r.1 r.2 :=
  ⟨((s.orFlags r.2).wF rd r.1).advance, hexec, rF_wF_same (s.orFlags r.2) rd r.1, advance_toNat _, rfl, ⟨rfl, rfl⟩,
    frame_wF_setPc s r.2 rd r.1 _⟩

theorem writesF_of_finishF32Flags {rd : FReg} {r : BitVec 32 × FFlags} (hexec : exec i s = s.finishF32Flags rd r) :
    WritesF s i rd (box32 r.1) r.2 :=
  writesF_of_finishF64Flags (r := (box32 r.1, r.2)) hexec

/-- A meaning that ends in a floating-point write completes without a flag. -/
theorem writesF_of_finishF {rd : FReg} {v : DWord} (hexec : exec i s = s.finishF rd v) : WritesF s i rd v :=
  writesF_of_finishF64Flags (r := (v, 0)) (hexec.trans (congrArg (State.finishF · rd v) (orFlags_none s).symm))

/-- A meaning that ends in an integer write with flags completes with the value cut to XLEN bits. -/
theorem writesX_of_finishXFlags {rd : XReg} {n : Nat} {r : BitVec n × FFlags} (hexec : exec i s = s.finishXFlags rd r) :
    WritesX s i rd (r.1.toNat % s.span) r.2 :=
  ⟨((s.orFlags r.2).wX rd r.1).advance, hexec, xNat_wX_advance_same (s.orFlags r.2) rd r.1, advance_toNat _, rfl,
    ⟨rfl, rfl⟩, frame_orFlags_wX_setPc s r.2 rd r.1 _⟩

end Completion

/-! ### Operands and results as bits and as numbers -/

section Operands

/-- The sign bit put before the bits below it. -/
theorem ofBool_append_toNat {w : Nat} (neg : Bool) (x : BitVec w) :
    (BitVec.ofBool neg ++ x).toNat = (if neg then 2 ^ w else 0) + x.toNat := by
  rw [BitVec.toNat_append, ← Nat.shiftLeft_add_eq_or_of_lt x.isLt, BitVec.toNat_ofBool, Nat.shiftLeft_eq]
  cases neg <;> simp

theorem withSign_toNat {F : Fmt} (neg : Bool) (a : BitVec F.width) :
    (F.withSign neg a).toNat = (if neg then 2 ^ (F.width - 1) else 0) + a.toNat % 2 ^ (F.width - 1) :=
  signed_toNat neg (Nat.mod_lt _ (Nat.two_pow_pos _))

/-- The single with another sign bit (R285 to R287). -/
theorem withSign_f32 (neg : Bool) (a : BitVec 32) :
    Fmt.f32.withSign neg a = (BitVec.ofBool neg ++ a.extractLsb' 0 31 : BitVec 32) := by
  apply BitVec.eq_of_toNat_eq
  rw [ofBool_append_toNat, BitVec.extractLsb'_toNat, Nat.shiftRight_zero]
  exact withSign_toNat (F := .f32) neg a

/-- The double with another sign bit (R341 to R343). -/
theorem withSign_f64 (neg : Bool) (a : BitVec 64) :
    Fmt.f64.withSign neg a = (BitVec.ofBool neg ++ a.extractLsb' 0 63 : BitVec 64) := by
  apply BitVec.eq_of_toNat_eq
  rw [ofBool_append_toNat, BitVec.extractLsb'_toNat, Nat.shiftRight_zero]
  exact withSign_toNat (F := .f64) neg a

/-- The sign bit as a field of one bit. -/
theorem extractLsb'_sign {w : Nat} (a : BitVec (w + 1)) : a.extractLsb' w 1 = BitVec.ofBool a.msb := by
  ext j hj
  obtain rfl : j = 0 := Nat.lt_one_iff.1 hj
  simp [BitVec.msb_eq_getLsbD_last]

/-- The pattern of an integer in a 64-bit container, cut to XLEN bits (R8). -/
theorem ofInt_mod_span (s : State) (z : Int) : (BitVec.ofInt 64 z).toNat % s.span = s.ofInt z := by
  have hdvd : (s.span : Int) ∣ ((2 ^ 64 : Nat) : Int) := by
    rw [State.span]
    cases s.cfg.xlen <;> decide
  have hnonneg : 0 ≤ z % ((2 ^ 64 : Nat) : Int) := Int.emod_nonneg z (by decide)
  rw [BitVec.toNat_ofInt, State.ofInt, ← Int.emod_emod_of_dvd z hdvd, Int.toNat_emod hnonneg (Nat.cast_nonneg _),
    Int.toNat_natCast]

/-- The result of a conversion to 32 bits is written sign-extended (R294, R301). -/
theorem toIntReg_32 (s : State) (r : Int × FFlags) : (toIntReg 32 r).1.toNat % s.span = s.ofInt (low32 r.1) := by
  rw [toIntReg, signExtend_ofInt_eq_low32, ofInt_mod_span]

theorem toIntReg_64 (s : State) (r : Int × FFlags) : (toIntReg 64 r).1.toNat % s.span = s.ofInt r.1 := by
  rw [toIntReg, BitVec.signExtend_eq, ofInt_mod_span]

/-- The conversion of an integer as the statements write it. -/
theorem ofInt_eq (F : Fmt) (m : RMode) (v : Int) :
    F.ofInt m v = if v = 0 then (0, flagsNone) else F.round m (.rat (v : Rat)) := by
  cases F <;> rfl

/-- The low word of a pattern is that of its number. -/
theorem extractLsb'_low_eq_ofInt (d : DWord) : d.extractLsb' 0 32 = BitVec.ofInt 32 (d.toNat : Int) := by
  apply BitVec.eq_of_toNat_eq
  rw [BitVec.ofInt_natCast, BitVec.toNat_ofNat, BitVec.extractLsb'_toNat, Nat.shiftRight_zero]

end Operands

section Conversions

variable {s : State} {i : Instr} {rd : XReg} {r : Int × FFlags}

theorem writesX_of_toIntReg_32 (hexec : exec i s = s.finishXFlags rd (toIntReg 32 r)) :
    WritesX s i rd (s.ofInt (low32 r.1)) r.2 :=
  toIntReg_32 s r ▸ writesX_of_finishXFlags hexec

theorem writesX_of_toIntReg_64 (hexec : exec i s = s.finishXFlags rd (toIntReg 64 r)) :
    WritesX s i rd (s.ofInt r.1) r.2 :=
  toIntReg_64 s r ▸ writesX_of_finishXFlags hexec

/-- A comparison writes its truth value as 1 or 0. -/
theorem writesX_of_boolX {c : Bool × FFlags} (hexec : exec i s = s.finishXFlags rd (s.boolX c.1, c.2)) :
    WritesX s i rd (if c.1 then 1 else 0) c.2 := by
  have h := writesX_of_finishXFlags hexec
  rwa [State.span, Nat.mod_eq_of_lt (BitVec.isLt _), boolX_toNat] at h

/-- A class is a bit of every register. -/
theorem writesX_of_class {F : Fmt} {b : BitVec F.width}
    (hexec : exec i s = s.finishX rd (BitVec.ofNat s.cfg.xlen.bits (2 ^ F.classOf b))) :
    WritesX s i rd (2 ^ F.classOf b) := by
  refine writesX_of_ofNat hexec (Nat.pow_lt_pow_right one_lt_two ((classOf_le b).trans_lt ?_))
  cases s.cfg.xlen <;> decide

end Conversions

/-! ### The obligations of 46_rv32f.md about instructions -/

/-- Settles O39: the loads write what they read, boxed or as it is; the stores are the shared one, on the whole register. -/
theorem floatLoadsAndStores : Obligations.FloatLoadsAndStores := by
  intro s rd rs2 rs1 imm a
  exact ⟨fun h => writesF_of_finishF (load_of_plainAccessible h _),
    fun h => writesF_of_finishF (load_of_plainAccessible h _),
    fun hm h => storesAt_of_store rfl hm (by decide) h, fun hm h => storesAt_of_store rfl hm le_rfl h⟩

/-- Settles O40: each is `withRm` around its operation, and the mode is given. -/
theorem singleArithmeticResults : Obligations.SingleArithmeticResults := by
  intro s rd rs1 rs2 rs3 rm m hm a b c w
  have hrm := fun i k => withRm_of_some hm i k
  exact ⟨writesF_of_finishF32Flags (hrm _ _), writesF_of_finishF32Flags (hrm _ _), writesF_of_finishF32Flags (hrm _ _),
    writesF_of_finishF32Flags (hrm _ _), writesF_of_finishF32Flags (hrm _ _), writesF_of_finishF32Flags (hrm _ _),
    writesF_of_finishF32Flags (hrm _ _), writesF_of_finishF32Flags (hrm _ _), writesF_of_finishF32Flags (hrm _ _)⟩


/-- Settles O42: the pattern with another sign bit, which is that of an operand, its complement, or their exclusive or. -/
theorem signInjectionMovesBits : Obligations.SignInjectionMovesBits := by
  intro s rd rs1 rs2 a b d e
  have ha : a.extractLsb' 31 1 = BitVec.ofBool a.msb := extractLsb'_sign (w := 31) a
  have hb : b.extractLsb' 31 1 = BitVec.ofBool b.msb := extractLsb'_sign (w := 31) b
  have hd : d.extractLsb' 63 1 = BitVec.ofBool d.msb := extractLsb'_sign (w := 63) d
  have he : e.extractLsb' 63 1 = BitVec.ofBool e.msb := extractLsb'_sign (w := 63) e
  rw [ha, hb, hd, he, BitVec.not_ofBool, BitVec.not_ofBool, BitVec.ofBool_xor_ofBool, BitVec.ofBool_xor_ofBool,
    ← withSign_f32, ← withSign_f32, ← withSign_f32, ← withSign_f64, ← withSign_f64, ← withSign_f64]
  exact ⟨writesF_of_finishF rfl, writesF_of_finishF rfl, writesF_of_finishF rfl, writesF_of_finishF rfl,
    writesF_of_finishF rfl, writesF_of_finishF rfl⟩

/-- Settles O43: the operand chosen is the first in numerical order, and for values in no order the sign decides. -/
theorem minMaxPickAnOperand : Obligations.MinMaxPickAnOperand := by
  refine ⟨fun s rd rs1 rs2 => ⟨writesF_of_finishF32Flags rfl, writesF_of_finishF32Flags rfl, writesF_of_finishF64Flags rfl,
    writesF_of_finishF64Flags rfl⟩, ?_⟩
  intro F a b va vb
  obtain ⟨hboth, hleft, hright⟩ := min_max_of_isNaN (a := a) (b := b)
  refine ⟨rfl, rfl, hboth, hleft, hright, min_max_of_zeros, fun hna heq => ?same, fun ha hb => ?lowInf, fun ha hb => ?highInf,
    fun v w ha hb hlt => ?numbers⟩
  case same =>
    obtain rfl : a = b := eq_of_value_eq heq hna
    exact min_max_self hna
  case lowInf =>
    have hva : F.value a = .inf true := ha
    have hlt : va.lt vb = true := by
      obtain hb | hb := hb
      · rw [ha, (lt_inf_of_isNumber hb true).2]
      · rw [ha, hb]
        rfl
    exact min_max_of_lt (isNaN_of_eq_inf ha) (hb.elim isNaN_of_isNumber isNaN_of_eq_inf) hlt
  case highInf =>
    refine min_max_of_lt (isNaN_of_isNumber ha) (isNaN_of_eq_inf hb) ?_
    rw [show F.value b = .inf false from hb, (lt_inf_of_isNumber ha false).1]
    rfl
  case numbers =>
    exact min_max_of_lt (isNaN_of_isRat ha) (isNaN_of_isRat hb) ((lt_of_isRat ha hb).trans (decide_eq_true hlt))

/-- Settles O44: the comparisons are determined by the order of values, which is numerical. -/
theorem comparisonsAreNumerical : Obligations.ComparisonsAreNumerical := by
  refine ⟨fun s rd rs1 rs2 => ⟨writesX_of_boolX rfl, writesX_of_boolX rfl, writesX_of_boolX rfl, writesX_of_boolX rfl,
    writesX_of_boolX rfl, writesX_of_boolX rfl⟩, ?_⟩
  intro F a b va vb
  refine ⟨comparisons_of_isNaN, fun v w ha hb => ?numbers, fun v ha hb => ?lowInf, fun v ha hb => ?highInf,
    fun n n' ha hb => ?infs⟩
  case numbers =>
    obtain ⟨hle, hlt, heq⟩ := comparisons_eq (isNaN_of_isRat ha) (isNaN_of_isRat hb)
    rw [hle, hlt, heq, lt_of_isRat ha hb, lt_of_isRat hb ha]
    simp [← decide_not, ← Bool.decide_and, le_antisymm_iff, and_comm]
  case lowInf =>
    have hvb : F.value b = .inf true := hb
    obtain ⟨hlt, hgt⟩ := lt_inf_of_isNumber (isNumber_of_isRat ha) true
    obtain ⟨hle, hlt', heq⟩ := comparisons_eq (isNaN_of_isRat ha) (isNaN_of_eq_inf hb)
    obtain ⟨hge, hgt', -⟩ := comparisons_eq (isNaN_of_eq_inf hb) (isNaN_of_isRat ha)
    rw [hle, hlt', heq, hge, hgt', hvb, hlt, hgt]
    exact ⟨rfl, rfl, rfl, rfl, rfl⟩
  case highInf =>
    have hvb : F.value b = .inf false := hb
    obtain ⟨hlt, hgt⟩ := lt_inf_of_isNumber (isNumber_of_isRat ha) false
    obtain ⟨hle, hlt', heq⟩ := comparisons_eq (isNaN_of_isRat ha) (isNaN_of_eq_inf hb)
    obtain ⟨hge, hgt', -⟩ := comparisons_eq (isNaN_of_eq_inf hb) (isNaN_of_isRat ha)
    rw [hle, hlt', heq, hge, hgt', hvb, hlt, hgt]
    exact ⟨rfl, rfl, rfl, rfl, rfl⟩
  case infs =>
    have hva : F.value a = .inf n := ha
    have hvb : F.value b = .inf n' := hb
    obtain ⟨hle, hlt, heq⟩ := comparisons_eq (isNaN_of_eq_inf ha) (isNaN_of_eq_inf hb)
    rw [hle, hlt, heq, hva, hvb]
    cases n <;> cases n' <;> exact ⟨rfl, rfl, rfl⟩

/-- Settles O45: the saturated integer is the one the mode chooses, and the eight conversions are `toInt` over their ranges. -/
theorem floatToIntegerSaturates : Obligations.FloatToIntegerSaturates := by
  refine ⟨?values, fun s rd rs1 rm m hm => ?instructions⟩
  case values =>
    intro F m a lo hi
    refine ⟨fun sig h => ?nan, fun h => ?highInf, fun h => ?lowInf, fun n h _ _ => ?zero, fun v h => ?number,
      not_nv_and_nx_of_mem _ toInt_flags_mem⟩
    case nan | highInf | lowInf | zero => simp [Fmt.toInt, h]
    case number =>
      obtain ⟨n, hchooses, hconv⟩ := toInt_of_value (m := m) (lo := lo) (hi := hi) h
      exact ⟨n, hchooses, fun hlow => hconv.trans (if_pos hlow),
        fun hlow hhigh => hconv.trans ((if_neg hlow.not_gt).trans (if_pos hhigh)),
        fun hlow hhigh => hconv.trans ((if_neg hlow.not_gt).trans (if_neg hhigh.not_gt))⟩
  case instructions =>
    intro a d w32 w64
    have hrm := fun i k => withRm_of_some hm i k
    refine ⟨writesX_of_toIntReg_32 (hrm _ _), writesX_of_toIntReg_32 (hrm _ _), writesX_of_toIntReg_32 (hrm _ _),
      writesX_of_toIntReg_32 (hrm _ _), fun hxl => ?_⟩
    have hrm64 := fun i k => (onRv64_of_rv64 hxl i _).trans (withRm_of_some hm i k)
    exact ⟨writesX_of_toIntReg_64 (hrm64 _ _), writesX_of_toIntReg_64 (hrm64 _ _), writesX_of_toIntReg_64 (hrm64 _ _),
      writesX_of_toIntReg_64 (hrm64 _ _)⟩

/-- Settles O46: each is `ofInt` of the signed or unsigned low word, or of the whole register. -/
theorem integerToFloatResults : Obligations.IntegerToFloatResults := by
  intro s rd rs1 rm m hm sw uw conv ws wd
  have hconv (F : Fmt) (v : Int) : conv F v = F.ofInt m v := (ofInt_eq F m v).symm
  have hsw : (s.rW rs1).toInt = sw := rW_toInt_eq_low32 s rs1
  have huw : ((s.rW rs1).toNat : Int) = uw := congrArg Nat.cast (rW_toNat s rs1)
  have hrm := fun i k => withRm_of_some hm i k
  simp only [ws, wd, hconv, ← hsw, ← huw]
  refine ⟨writesF_of_finishF32Flags (hrm _ _), writesF_of_finishF32Flags (hrm _ _), writesF_of_finishF64Flags (hrm _ _),
    writesF_of_finishF64Flags (hrm _ _), fun hxl => ?_⟩
  have hrm64 := fun i k => (onRv64_of_rv64 hxl i _).trans (withRm_of_some hm i k)
  exact ⟨writesF_of_finishF32Flags (hrm64 _ _), writesF_of_finishF32Flags (hrm64 _ _),
    writesF_of_finishF64Flags (hrm64 _ _), writesF_of_finishF64Flags (hrm64 _ _)⟩

/-- Settles O47: the moves copy bits, and the class is the bit that the fields of the pattern name. -/
theorem movesAndClassify : Obligations.MovesAndClassify := by
  refine ⟨fun s xd rs fd fs => ⟨?toX, ?toF, writesX_of_class rfl, writesX_of_class rfl, fun hxl => ⟨?toX64, ?toF64⟩⟩,
    fun F a => classOf_eq_fields a⟩
  case toX =>
    refine writesX_of_ofInt rfl ?_
    rw [extractLsb'_low_eq_ofInt, signExtend_ofInt_eq_low32]
  case toF =>
    rw [State.xNat, BitVec.ofNat_toNat]
    exact writesF_of_finishF rfl
  case toX64 =>
    have h := writesX_of_finishX (i := .fmvXD xd fs) (onRv64_of_rv64 hxl _ (s.finishX xd (s.rF fs)))
    rwa [State.span, hxl, XLen.bits, Nat.mod_eq_of_lt (s.rF fs).isLt] at h
  case toF64 =>
    rw [State.xNat, BitVec.ofNat_toNat]
    exact writesF_of_finishF (onRv64_of_rv64 hxl _ _)

end Sys2Proof.Proofs

/-!
# The accrued exception flags (R28 to R30, R272)

First which flags each operation can signal, as a short list; that every flag set of the list is one its instructions' row of
R272 allows is then decided. A root or a converted integer keeps its exponent within the format, and an integer of fewer bits
than the precision is exact. Then every instruction ORs such flags into `fcsr`, and so does a run.
-/
namespace Sys2Proof.Proofs

open Sys2Proof.Machine Sys2Proof.Laws

/-! ### The flags of the operations -/

section Operations

variable {F : Fmt} {m : RMode} {a b c : BitVec F.width}

/-- The sets of flags of a sum or product: those of a rounding, or NV. -/
def operationFlags : List FFlags := flagNV :: roundingFlags

/-- The sets of flags of a quotient: those of a sum, or DZ besides. -/
def divisionFlags : List FFlags := operationFlags ++ operationFlags.map (· ||| flagDZ)

/-- The sets of flags of a comparison or selection. -/
def invalidFlags : List FFlags := [flagsNone, flagNV]

theorem nvIf_mem_invalidFlags (nv : Bool) : nvIf nv ∈ invalidFlags := by cases nv <;> decide

theorem nanResult_flags_mem (F : Fmt) (nv : Bool) : (F.nanResult nv).2 ∈ operationFlags := by
  change nvIf nv ∈ operationFlags
  cases nv <;> decide

theorem none_mem_operationFlags : flagsNone ∈ operationFlags := by decide

theorem roundSum_flags_mem (F : Fmt) (m : RMode) (v w : Rat) : (F.roundSum m v w).2 ∈ operationFlags := by
  unfold Fmt.roundSum
  split_ifs
  · exact none_mem_operationFlags
  · exact List.mem_cons_of_mem _ (round_flags_mem F m _)

theorem roundValue_mem_operationFlags (F : Fmt) (m : RMode) (v : FVal) : (F.roundValue m v).2 ∈ operationFlags :=
  List.mem_cons_of_mem _ (roundValue_flags_mem F m v)

theorem addValues_flags_mem (F : Fmt) (m : RMode) (v w : FVal) : (F.addValues m v w).2 ∈ operationFlags := by
  cases v with
  | nan => exact nanResult_flags_mem F false
  | inf n =>
    cases w with
    | nan => exact nanResult_flags_mem F false
    | zero | fin => exact none_mem_operationFlags
    | inf n' =>
      rw [Fmt.addValues]
      split_ifs
      · exact none_mem_operationFlags
      · exact nanResult_flags_mem F true
  | zero n =>
    cases w with
    | nan => exact nanResult_flags_mem F false
    | inf => exact none_mem_operationFlags
    | fin => exact roundSum_flags_mem F m _ _
    | zero n' =>
      rw [Fmt.addValues]
      split_ifs <;> exact none_mem_operationFlags
  | fin v =>
    cases w with
    | nan => exact nanResult_flags_mem F false
    | inf => exact none_mem_operationFlags
    | zero | fin => exact roundSum_flags_mem F m _ _

theorem add_flags_mem : (F.add m a b).2 ∈ operationFlags := by
  unfold Fmt.add
  split_ifs
  · exact nanResult_flags_mem F _
  · exact addValues_flags_mem F m _ _

theorem sub_flags_mem : (F.sub m a b).2 ∈ operationFlags := by
  unfold Fmt.sub
  split_ifs
  · exact nanResult_flags_mem F _
  · exact addValues_flags_mem F m _ _

theorem mul_flags_mem : (F.mul m a b).2 ∈ operationFlags := by
  unfold Fmt.mul
  split_ifs
  · exact nanResult_flags_mem F _
  · split
    · exact nanResult_flags_mem F true
    · exact roundValue_mem_operationFlags F m _

theorem fma_flags_mem {np nc : Bool} : (F.fma m a b c np nc).2 ∈ operationFlags := by
  unfold Fmt.fma
  dsimp only
  split
  · exact nanResult_flags_mem F _
  · split
    · exact nanResult_flags_mem F true
    · split
      · exact nanResult_flags_mem F _
      · exact addValues_flags_mem F m _ _

theorem div_flags_mem : (F.div m a b).2 ∈ divisionFlags := by
  unfold Fmt.div
  split_ifs
  · exact List.mem_append_left _ (nanResult_flags_mem F _)
  · split
    · exact List.mem_append_left _ (nanResult_flags_mem F true)
    · next p fl hdiv =>
      have hround := roundValue_mem_operationFlags F m p
      obtain rfl | ⟨v, n, ha, hb⟩ := div_flags hdiv
      · exact List.mem_append_left _ (BitVec.or_zero.symm ▸ hround)
      · obtain rfl : flagDZ = fl := by
          rw [ha, hb] at hdiv
          exact congrArg Prod.snd (Option.some.inj hdiv)
        exact List.mem_append_right _ (List.mem_map_of_mem hround)

theorem min_flags_mem : (F.min a b).2 ∈ invalidFlags := nvIf_mem_invalidFlags _

theorem max_flags_mem : (F.max a b).2 ∈ invalidFlags := nvIf_mem_invalidFlags _

theorem eq_flags_mem : (F.eq a b).2 ∈ invalidFlags := nvIf_mem_invalidFlags _

theorem le_flags_mem : (F.le a b).2 ∈ invalidFlags := by
  unfold Fmt.le
  dsimp only
  split_ifs
  · exact nvIf_mem_invalidFlags true
  · exact nvIf_mem_invalidFlags false

theorem lt_flags_mem : (F.lt a b).2 ∈ invalidFlags := by
  unfold Fmt.lt
  dsimp only
  split_ifs
  · exact nvIf_mem_invalidFlags true
  · exact nvIf_mem_invalidFlags false

end Operations

/-! ### Results that neither overflow nor underflow -/

section InRange

variable {F : Fmt} {m : RMode}

/-- The sets of flags of a result whose exponent is within the format. -/
def inexactFlags : List FFlags := [flagsNone, flagNX]

/-- A result whose exponent is within the format, and not the last one, signals at most NX. -/
theorem round_flags_mem_of_log2 {x : Exact} {r : Real} (hx : x.isReal r) (hlow : F.emin ≤ x.log2)
    (hhigh : x.log2 < F.emax) : (F.round m x).2 ∈ inexactFlags := by
  rw [(round_normal hx (unbounded_lt_of_log2_lt hx m hhigh) hlow).2]
  cases decide (unbounded F m x ≠ r) <;> decide

/-- The signed and the unsigned value of a pattern of at most `n` bits, in magnitude. -/
theorem natAbs_lt_of_width_le {w : Nat} (x : BitVec w) {n : Nat} (hw : w ≤ n) :
    x.toInt.natAbs < 2 ^ (n + 1) ∧ (x.toNat : Int).natAbs < 2 ^ (n + 1) := by
  have hpow : 2 ^ w ≤ 2 ^ n := Nat.pow_le_pow_right two_pos hw
  have hlow := BitVec.le_two_mul_toInt (x := x)
  have hhigh := BitVec.two_mul_toInt_lt (x := x)
  have hnat := x.isLt
  have hcast : ((2 ^ w : Nat) : Int) = 2 ^ w := Nat.cast_pow 2 w
  rw [Nat.pow_succ]
  omega

theorem bits_le (xl : XLen) : xl.bits ≤ 64 := by cases xl <;> decide

/-- A converted integer of at most 64 bits signals at most NX. -/
theorem ofInt_flags_mem {z : Int} (hz : z.natAbs < 2 ^ 65) : (F.ofInt m z).2 ∈ inexactFlags := by
  unfold Fmt.ofInt
  split_ifs with hzero
  · exact List.mem_cons_self
  · obtain ⟨hlow, hhigh⟩ := log2_intCast hzero hz
    have hemax := emax_bounds F
    have hemin := emin_eq F
    exact round_flags_mem_of_log2 (isReal_intCast hzero) (by omega) (by push_cast at hhigh; omega)

/-- A converted integer of at most `p` bits signals nothing. -/
theorem ofInt_flags_of_lt {z : Int} (hz : z.natAbs < 2 ^ F.prec) : (F.ofInt m z).2 = flagsNone := by
  unfold Fmt.ofInt
  split_ifs with hzero
  · rfl
  · exact (round_intCast m hzero hz).2

/-- A positive value lies between the smallest quantum and the overflow threshold. -/
theorem value_bounds {b : BitVec F.width} {v : Rat} (h : F.value b = .fin v) (hv : 0 < v) :
    pow2 F.qmin ≤ v ∧ v < pow2 (F.emax + 1) := by
  obtain ⟨q, k, hpacks, hk, hlt, -, rfl⟩ := exists_pack_of_value h
  have hsign : b.msb = false := by
    rw [← (value_fin_ne_zero h).2]
    exact decide_eq_false hv.not_gt
  rw [hsign]
  constructor
  · have hone : (1 : Rat) ≤ k := by exact_mod_cast Nat.one_le_iff_ne_zero.2 hk
    have hquantum : pow2 F.qmin ≤ pow2 q := by
      rw [pow2_eq_zpow, pow2_eq_zpow]
      exact zpow_le_zpow_right₀ one_le_two hpacks.quantum
    calc pow2 F.qmin ≤ 1 * pow2 q := by rwa [one_mul]
      _ ≤ k * pow2 q := mul_le_mul_of_nonneg_right hone (pow2_pos q).le
  · rw [lt_pow2_iff]
    have := hpacks.lt hlt
    simpa [negIf] using this

/-- The exponent of the root of a positive value is far within the format. -/
theorem log2_root_bounds {b : BitVec F.width} {v : Rat} (h : F.value b = .fin v) (hv : 0 < v) :
    F.emin ≤ (Exact.root v).log2 ∧ (Exact.root v).log2 < F.emax := by
  obtain ⟨hlow, hhigh⟩ := value_bounds h hv
  obtain ⟨hle, hlt⟩ := ratLog2_bounds hv
  have h1 := pow2_lt_iff.1 (hlow.trans_lt hlt)
  have h2 := pow2_lt_iff.1 (hle.trans_lt hhigh)
  have hfrac := fracBits_lt_emax F
  have hqmin := qmin_eq F
  have hemin := emin_eq F
  have hemax := emax_bounds F
  rw [Exact.log2]
  omega

theorem sqrt_flags_mem {a : BitVec F.width} : (F.sqrt m a).2 ∈ conversionFlags := by
  have hnv (nv : Bool) : nvIf nv ∈ conversionFlags := by cases nv <;> decide
  have hsub : inexactFlags ⊆ conversionFlags := by decide
  cases ha : F.value a with
  | nan sig => simp only [Fmt.sqrt, ha]; exact hnv sig
  | zero n => simp only [Fmt.sqrt, ha]; exact List.mem_cons_self
  | inf n =>
    simp only [Fmt.sqrt, ha]
    split_ifs
    · exact hnv true
    · exact List.mem_cons_self
  | fin v =>
    simp only [Fmt.sqrt, ha]
    split_ifs with hneg
    · exact hnv true
    · have hv : 0 < v := (not_lt.1 hneg).lt_of_ne' (value_fin_ne_zero ha).1
      have hx : (Exact.root v).isReal (Real.sqrt v) :=
        ⟨Real.mul_self_sqrt (Rat.cast_nonneg.2 hv.le), Real.sqrt_pos.2 (Rat.cast_pos.2 hv)⟩
      obtain ⟨hlow, hhigh⟩ := log2_root_bounds ha hv
      exact hsub (round_flags_mem_of_log2 hx hlow hhigh)

end InRange

/-! ### Instructions OR flags of their row of R272 into `fcsr` -/

/-- `MaskAllows mask fl`: an instruction with the flag set `mask` in R272 may signal `fl`. -/
def MaskAllows (mask fl : FFlags) : Prop :=
  fl &&& ~~~mask = 0 ∧ (fl &&& (flagOF ||| flagUF) ≠ 0 → fl &&& flagNX ≠ 0) ∧
    (mask = flagNV ||| flagNX → fl &&& flagNV = 0 ∨ fl &&& flagNX = 0)

/-- `Signals i s r`: if the result `r` is a next state, its `fcsr` is that of `s` with flags that instruction `i` may signal. -/
def Signals (i : Instr) (s : State) (r : Res) : Prop :=
  ∀ t, r = .next t → ∃ fl : FFlags, t.fcsr = s.fcsr ||| fl.setWidth 32 ∧ MaskAllows i.flagMask fl

section Masks

theorem maskAllows_none (mask : FFlags) : MaskAllows mask 0 := by
  refine ⟨BitVec.zero_and, fun h => absurd BitVec.zero_and h, fun _ => .inl BitVec.zero_and⟩

theorem maskAllows_of_eq_none {mask fl : FFlags} (h : fl = flagsNone) : MaskAllows mask fl := h ▸ maskAllows_none mask

theorem maskAllows_operation : ∀ fl ∈ operationFlags, MaskAllows (flagNV ||| flagOF ||| flagUF ||| flagNX) fl := by
  unfold MaskAllows
  decide

theorem maskAllows_division :
    ∀ fl ∈ divisionFlags, MaskAllows (flagNV ||| flagDZ ||| flagOF ||| flagUF ||| flagNX) fl := by
  unfold MaskAllows
  decide

theorem maskAllows_conversion : ∀ fl ∈ conversionFlags, MaskAllows (flagNV ||| flagNX) fl := by
  unfold MaskAllows
  decide

theorem maskAllows_invalid : ∀ fl ∈ invalidFlags, MaskAllows flagNV fl := by
  unfold MaskAllows
  decide

theorem maskAllows_inexact : ∀ fl ∈ inexactFlags, MaskAllows flagNX fl := by
  unfold MaskAllows
  decide

end Masks

namespace Signals

variable {i : Instr} {s : State}

/-- A result that leaves `fcsr` as it was signals nothing. -/
theorem of_fcsr_eq {r : Res} (h : ∀ t, r = .next t → t.fcsr = s.fcsr) : Signals i s r :=
  fun t ht => ⟨0, (h t ht).trans BitVec.or_zero.symm, maskAllows_none _⟩

theorem finishX {rd : XReg} {n : Nat} {v : BitVec n} : Signals i s (s.finishX rd v) :=
  of_fcsr_eq fun _ ht => (Host.Outcome.next.inj ht) ▸ rfl

theorem finishF {rd : FReg} {v : DWord} : Signals i s (s.finishF rd v) :=
  of_fcsr_eq fun _ ht => (Host.Outcome.next.inj ht) ▸ rfl

theorem finishXFlags {rd : XReg} {n : Nat} {r : BitVec n × FFlags} (h : MaskAllows i.flagMask r.2) :
    Signals i s (s.finishXFlags rd r) := fun _ ht => ⟨r.2, (Host.Outcome.next.inj ht) ▸ rfl, h⟩

theorem finishF64Flags {rd : FReg} {r : DWord × FFlags} (h : MaskAllows i.flagMask r.2) :
    Signals i s (s.finishF64Flags rd r) := fun _ ht => ⟨r.2, (Host.Outcome.next.inj ht) ▸ rfl, h⟩

theorem finishF32Flags {rd : FReg} {r : BitVec 32 × FFlags} (h : MaskAllows i.flagMask r.2) :
    Signals i s (s.finishF32Flags rd r) := fun _ ht => ⟨r.2, (Host.Outcome.next.inj ht) ▸ rfl, h⟩

theorem raise {e : Exc} {n : Nat} {v : BitVec n} : Signals i s (raise s e v) :=
  of_fcsr_eq fun _ ht => (Host.Outcome.next.inj ht) ▸ rfl

theorem onRv64 {j : Instr} {k : Res} (h : Signals i s k) : Signals i s (onRv64 s j k) := by
  unfold Machine.onRv64
  split
  · exact h
  · exact raise

theorem withRm {j : Instr} {rm : Rm} {k : RMode → Res} (h : ∀ m, Signals i s (k m)) : Signals i s (withRm s j rm k) := by
  unfold Machine.withRm
  split
  · exact h _
  · exact raise

theorem load {w n : Nat} {a : BitVec w} {k : BitVec (8 * n) → Res} (h : ∀ v, Signals i s (k v)) :
    Signals i s (load s a n k) := by
  unfold Machine.load
  split
  · exact raise
  · exact h _

theorem jump {rd : XReg} {a : BitVec s.cfg.xlen.bits} : Signals i s (jump s rd a) :=
  of_fcsr_eq fun t ht => by obtain ⟨-, rfl⟩ | ⟨-, rfl⟩ := jump_cases ht <;> rfl

theorem branch {c : Bool} {off : BitVec 13} : Signals i s (branch s c off) :=
  of_fcsr_eq fun t ht => by obtain ⟨-, rfl⟩ | ⟨-, -, rfl⟩ | ⟨-, -, rfl⟩ := branch_cases ht <;> rfl

theorem store {w k n : Nat} {a : BitVec w} {v : BitVec k} : Signals i s (store s a n v) :=
  of_fcsr_eq fun t ht => by obtain ⟨-, rfl⟩ | ⟨e, -, rfl⟩ := store_cases ht <;> rfl

theorem amo {rd : XReg} {w n : Nat} {a : BitVec w} {op : BitVec (8 * n) → BitVec (8 * n) → BitVec (8 * n)}
    {v : BitVec (8 * n)} : Signals i s (amo s rd a n op v) :=
  of_fcsr_eq fun t ht => by obtain ⟨-, rfl⟩ | ⟨e, -, rfl⟩ := amo_cases ht <;> rfl

theorem loadReserved {rd : XReg} {w n : Nat} {a : BitVec w} : Signals i s (loadReserved s rd a n) :=
  of_fcsr_eq fun t ht => by obtain ⟨-, rfl⟩ | ⟨e, -, rfl⟩ := loadReserved_cases ht <;> rfl

theorem storeConditional {rd : XReg} {w k n : Nat} {a : BitVec w} {v : BitVec k} :
    Signals i s (storeConditional s rd a n v) :=
  of_fcsr_eq fun t ht => by
    obtain ⟨-, -, -, rfl⟩ | ⟨-, -, -, rfl⟩ | ⟨-, -, rfl⟩ | ⟨e, -, rfl⟩ := storeConditional_cases ht <;> rfl

end Signals

/-- Every instruction ORs flags of its row of R272 into `fcsr`, or leaves it as it was. -/
theorem exec_signals (i : Instr) (s : State) : Signals i s (exec i s) := by
  cases i with
  | lui | auipc | addi | slti | sltiu | xori | ori | andi | slli32 | srli32 | srai32 | add | sub | sll | slt | sltu | xor
  | srl | sra | or | and | mul | mulh | mulhsu | mulhu | div | divu | rem | remu | fmvXS | fclassS | fclassD =>
    exact .finishX
  | slli64 | srli64 | srai64 | addiw | slliw | srliw | sraiw | addw | subw | sllw | srlw | sraw | mulw | divw | divuw | remw
  | remuw | fmvXD => exact .onRv64 .finishX
  | jal | jalr => exact .jump
  | beq | bne | blt | bge | bltu | bgeu => exact .branch
  | lb | lh | lw | lbu | lhu => exact .load fun _ => .finishX
  | lwu | ld => exact .onRv64 (.load fun _ => .finishX)
  | sb | sh | sw | fsw | fsd => exact .store
  | sd => exact .onRv64 .store
  | fence | fenceI => exact .of_fcsr_eq fun _ ht => (Host.Outcome.next.inj ht) ▸ rfl
  | lrW => exact .loadReserved
  | scW => exact .storeConditional
  | amoswapW | amoaddW | amoxorW | amoorW | amoandW | amominW | amomaxW | amominuW | amomaxuW =>
    unfold exec
    exact .amo
  | lrD => exact .onRv64 .loadReserved
  | scD => exact .onRv64 .storeConditional
  | amoswapD | amoaddD | amoxorD | amoorD | amoandD | amominD | amomaxD | amominuD | amomaxuD =>
    exact .onRv64 .amo
  | flw | fld => exact .load fun _ => .finishF
  | fsgnjS | fsgnjnS | fsgnjxS | fmvSX | fsgnjD | fsgnjnD | fsgnjxD => exact .finishF
  | fmvDX => exact .onRv64 .finishF
  | fminS => exact .finishF32Flags (maskAllows_invalid _ min_flags_mem)
  | fmaxS => exact .finishF32Flags (maskAllows_invalid _ max_flags_mem)
  | fminD => exact .finishF64Flags (maskAllows_invalid _ (min_flags_mem (F := .f64)))
  | fmaxD => exact .finishF64Flags (maskAllows_invalid _ (max_flags_mem (F := .f64)))
  | fleS | fleD => exact .finishXFlags (maskAllows_invalid _ le_flags_mem)
  | fltS | fltD => exact .finishXFlags (maskAllows_invalid _ lt_flags_mem)
  | feqS | feqD => exact .finishXFlags (maskAllows_invalid _ eq_flags_mem)
  | fmaddS | fmsubS | fnmsubS | fnmaddS =>
    exact .withRm fun _ => .finishF32Flags (maskAllows_operation _ fma_flags_mem)
  | faddS => exact .withRm fun _ => .finishF32Flags (maskAllows_operation _ add_flags_mem)
  | fsubS => exact .withRm fun _ => .finishF32Flags (maskAllows_operation _ sub_flags_mem)
  | fmulS => exact .withRm fun _ => .finishF32Flags (maskAllows_operation _ mul_flags_mem)
  | fdivS => exact .withRm fun _ => .finishF32Flags (maskAllows_division _ div_flags_mem)
  | fsqrtS => exact .withRm fun _ => .finishF32Flags (maskAllows_conversion _ sqrt_flags_mem)
  | fmaddD | fmsubD | fnmsubD | fnmaddD =>
    exact .withRm fun _ => .finishF64Flags (maskAllows_operation _ (fma_flags_mem (F := .f64)))
  | faddD => exact .withRm fun _ => .finishF64Flags (maskAllows_operation _ (add_flags_mem (F := .f64)))
  | fsubD => exact .withRm fun _ => .finishF64Flags (maskAllows_operation _ (sub_flags_mem (F := .f64)))
  | fmulD => exact .withRm fun _ => .finishF64Flags (maskAllows_operation _ (mul_flags_mem (F := .f64)))
  | fdivD => exact .withRm fun _ => .finishF64Flags (maskAllows_division _ (div_flags_mem (F := .f64)))
  | fsqrtD => exact .withRm fun _ => .finishF64Flags (maskAllows_conversion _ (sqrt_flags_mem (F := .f64)))
  | fcvtWS | fcvtWuS | fcvtWD | fcvtWuD =>
    exact .withRm fun _ => .finishXFlags (maskAllows_conversion _ toInt_flags_mem)
  | fcvtLS | fcvtLuS | fcvtLD | fcvtLuD =>
    exact .onRv64 (.withRm fun _ => .finishXFlags (maskAllows_conversion _ toInt_flags_mem))
  | fcvtSW rd rs1 =>
    obtain ⟨hsigned, -⟩ := natAbs_lt_of_width_le (s.rW rs1) (n := 64) (by decide)
    exact .withRm fun _ => .finishF32Flags (maskAllows_inexact _ (ofInt_flags_mem hsigned))
  | fcvtSWu rd rs1 =>
    obtain ⟨-, hunsigned⟩ := natAbs_lt_of_width_le (s.rW rs1) (n := 64) (by decide)
    exact .withRm fun _ => .finishF32Flags (maskAllows_inexact _ (ofInt_flags_mem hunsigned))
  | fcvtSL rd rs1 =>
    obtain ⟨hsigned, -⟩ := natAbs_lt_of_width_le (s.rX rs1) (bits_le s.cfg.xlen)
    exact .onRv64 (.withRm fun _ => .finishF32Flags (maskAllows_inexact _ (ofInt_flags_mem hsigned)))
  | fcvtSLu rd rs1 =>
    obtain ⟨-, hunsigned⟩ := natAbs_lt_of_width_le (s.rX rs1) (bits_le s.cfg.xlen)
    exact .onRv64 (.withRm fun _ => .finishF32Flags (maskAllows_inexact _ (ofInt_flags_mem hunsigned)))
  | fcvtDL rd rs1 =>
    obtain ⟨hsigned, -⟩ := natAbs_lt_of_width_le (s.rX rs1) (bits_le s.cfg.xlen)
    exact .onRv64 (.withRm fun _ => .finishF64Flags (maskAllows_inexact _ (ofInt_flags_mem (F := .f64) hsigned)))
  | fcvtDLu rd rs1 =>
    obtain ⟨-, hunsigned⟩ := natAbs_lt_of_width_le (s.rX rs1) (bits_le s.cfg.xlen)
    exact .onRv64 (.withRm fun _ => .finishF64Flags (maskAllows_inexact _ (ofInt_flags_mem (F := .f64) hunsigned)))
  | fcvtDW rd rs1 =>
    obtain ⟨hsigned, -⟩ := natAbs_lt_of_width_le (s.rW rs1) (n := 52) (by decide)
    exact .withRm fun _ => .finishF64Flags (maskAllows_of_eq_none (ofInt_flags_of_lt (F := .f64) hsigned))
  | fcvtDWu rd rs1 =>
    obtain ⟨-, hunsigned⟩ := natAbs_lt_of_width_le (s.rW rs1) (n := 52) (by decide)
    exact .withRm fun _ => .finishF64Flags (maskAllows_of_eq_none (ofInt_flags_of_lt (F := .f64) hunsigned))

/-! ### What a run keeps of `fcsr` -/

section Fcsr

/-- Flags ORed into `fcsr` leave the bits above them, and each flag that was set (R28, R30). -/
theorem fcsr_fields_or (x : BitVec 32) (fl : FFlags) :
    (x ||| fl.setWidth 32).extractLsb' 5 3 = x.extractLsb' 5 3 ∧
      (x ||| fl.setWidth 32).extractLsb' 0 5 = x.extractLsb' 0 5 ||| fl ∧
      (x ||| fl.setWidth 32).extractLsb' 8 24 = x.extractLsb' 8 24 := by
  have hhigh (k : Nat) (hk : 5 ≤ k) : fl.getLsbD k = false := BitVec.getLsbD_of_ge fl k hk
  refine ⟨?_, ?_, ?_⟩
  · ext j hj
    simp
  · ext j hj
    simp [hj.trans (by decide : 5 < 32), BitVec.getLsbD_eq_getElem hj]
  · ext j hj
    simp [hhigh (8 + j) (by omega)]

/-- What is set stays set when more is set. -/
theorem and_or_absorb {w : Nat} (x y : BitVec w) : x &&& (x ||| y) = x := by
  ext j hj
  rw [BitVec.getElem_and, BitVec.getElem_or]
  exact inf_sup_self

/-- A step ORs flags into `fcsr`. -/
theorem step_fcsr {s t : State} (h : step s = .next t) : ∃ fl : FFlags, t.fcsr = s.fcsr ||| fl.setWidth 32 := by
  obtain ⟨-, rfl | ⟨draws, ⟨i, hexec⟩ | ⟨e, v, rfl⟩⟩⟩ := step_cases h
  · exact ⟨0, BitVec.or_zero.symm⟩
  · obtain ⟨fl, hfl, -⟩ := exec_signals i _ t hexec
    exact ⟨fl, hfl⟩
  · exact ⟨0, BitVec.or_zero.symm⟩

/-- A run ORs flags into `fcsr`. -/
theorem reachable_fcsr {s t : State} (h : Reachable s t) : ∃ fl : FFlags, t.fcsr = s.fcsr ||| fl.setWidth 32 := by
  induction h with
  | here => exact ⟨0, BitVec.or_zero.symm⟩
  | after _ hstep ih =>
    obtain ⟨fl, hfl⟩ := ih
    obtain ⟨fl', hfl'⟩ := step_fcsr hstep
    exact ⟨fl ||| fl', by rw [hfl', hfl, BitVec.or_assoc, BitVec.setWidth_or]⟩

end Fcsr

/-- Settles O52: each instruction signals flags of its row, so a run only ORs flags into `fcsr`. -/
theorem flagsPerInstruction : Obligations.FlagsPerInstruction := by
  refine ⟨fun i s t h => exec_signals i s t h, fun s t h => ?_⟩
  obtain ⟨fl, hfl⟩ := reachable_fcsr h
  obtain ⟨hfrm, hflags, hreserved⟩ := fcsr_fields_or s.fcsr fl
  rw [State.frm, State.frm, State.fflags, State.fflags, hfl, hflags]
  exact ⟨hfrm, and_or_absorb _ _, hreserved⟩

end Sys2Proof.Proofs

/-!
# The double-precision arithmetic instructions (R333 to R340, R346)

The nine meanings have one shape: an operation on the 64-bit operands under the effective rounding mode, whose pattern is
written and whose flags accrue. The shape is completed once; each instruction is then an instance of it.
-/
namespace Sys2Proof.Proofs

open Sys2Proof.Machine Sys2Proof.Laws

/-- Under an effective rounding mode, a rounded double operation completes with its pattern and its flags in that mode. -/
theorem writesF_of_withRm_finishF64Flags {s : State} {i : Instr} {rd : FReg} {rm : Rm} {m : RMode}
    {op : RMode → DWord × FFlags} (hm : s.roundingMode rm = some m)
    (hexec : exec i s = withRm s i rm fun m' => s.finishF64Flags rd (op m')) : WritesF s i rd (op m).1 (op m).2 :=
  writesF_of_finishF64Flags (hexec.trans (withRm_of_some hm i _))

/-- Settles O41: each meaning is `withRm` around its operation on the whole registers, and the mode is given. -/
theorem doubleArithmeticResults : Obligations.DoubleArithmeticResults := by
  intro s rd rs1 rs2 rs3 rm m hm a b c w
  have completes (i : Instr) (op : RMode → DWord × FFlags)
      (hexec : exec i s = withRm s i rm fun m' => s.finishF64Flags rd (op m')) : w i (op m) :=
    writesF_of_withRm_finishF64Flags hm hexec
  have fused (i : Instr) (negProduct negAddend : Bool)
      (hexec : exec i s = withRm s i rm fun m' => s.finishF64Flags rd (Fmt.f64.fma m' a b c negProduct negAddend)) :
      w i (Fmt.f64.fma m a b c negProduct negAddend) :=
    completes i (fun m' => Fmt.f64.fma m' a b c negProduct negAddend) hexec
  refine ⟨?add, ?sub, ?mul, ?div, ?sqrt, ?fmadd, ?fmsub, ?fnmsub, ?fnmadd⟩
  case add => exact completes _ (fun m' => Fmt.f64.add m' a b) rfl
  case sub => exact completes _ (fun m' => Fmt.f64.sub m' a b) rfl
  case mul => exact completes _ (fun m' => Fmt.f64.mul m' a b) rfl
  case div => exact completes _ (fun m' => Fmt.f64.div m' a b) rfl
  case sqrt => exact completes _ (fun m' => Fmt.f64.sqrt m' a) rfl
  case fmadd => exact fused _ false false rfl
  case fmsub => exact fused _ false true rfl
  case fnmsub => exact fused _ true false rfl
  case fnmadd => exact fused _ true true rfl

end Sys2Proof.Proofs

/-!
# The end of a run: traps, vacant instruction bytes and HALT_SET (R383, R387, R388, R397)

First the step of a hart by its status and the checks before the fetch, then the statements that follow from these equations
and from the outcomes of the instructions.
-/
namespace Sys2Proof.Proofs

open Sys2Proof.Machine Sys2Proof.Laws

/-! ### The step by the status of the hart, and the checks before the fetch (R11, R386) -/

section StepEquations

variable {s : State}

theorem step_of_stopped (h : s.status = .stopped) : step s = .fault .hartStopped := by
  rw [step, cycle, h]

theorem step_of_trapped {e : Exc} {v p : DWord} (h : s.status = .trapped e v p) :
    step s = .fault (.hartTrapped e v p) := by
  rw [step, cycle, h]

/-- A running hart in HALT_SET stops before the fetch (R397). -/
theorem step_of_atHalt (hrun : s.status = .running) (hpc : s.pc.toNat % 4 = 0) (hhalt : s.atHalt = true) :
    step s = .next { s with status := .stopped } := by
  simp [step, cycle, hrun, hpc, hhalt]

/-- A running hart outside HALT_SET traps on a vacant instruction byte (R383). -/
theorem step_of_vacant (hrun : s.status = .running) (hpc : s.pc.toNat % 4 = 0) (hhalt : s.atHalt = false)
    (hvacant : s.fetchAddrs.all s.cfg.mapped = false) : step s = raise s .instructionAccessFault s.rPc := by
  unfold step cycle
  simp [hrun, hpc, hhalt, hvacant]

/-- A pc of XLEN bits is the whole of its container (R23). -/
theorem rPc_setWidth (hwidth : s.pc.toNat < s.span) : s.rPc.setWidth 64 = s.pc := by
  refine BitVec.eq_of_toNat_eq ?_
  rw [BitVec.toNat_setWidth_of_le (bits_le s.cfg.xlen), rPc_toNat]
  exact Nat.mod_eq_of_lt hwidth

/-- The trap of a fetch from a vacant byte: the trap value is the pc (R383). -/
theorem step_eq_takeTrap_of_vacant (hrun : s.status = .running) (hpc : s.pc.toNat % 4 = 0) (hwidth : s.pc.toNat < s.span)
    (hhalt : s.atHalt = false) (hvacant : s.fetchAddrs.all s.cfg.mapped = false) :
    step s = .next (s.takeTrap .instructionAccessFault s.pc) := by
  rw [step_of_vacant hrun hpc hhalt hvacant, raise_eq, rPc_setWidth hwidth]

theorem atHalt_of_mem (h : s.pc ∈ s.cfg.haltSet) : s.atHalt = true :=
  List.any_eq_true.2 ⟨s.pc, h, beq_self_eq_true _⟩

theorem atHalt_of_haltSet_eq_nil (h : s.cfg.haltSet = []) : s.atHalt = false := by
  rw [State.atHalt, h, List.any_nil]

/-- The pc is the first address of the fetch. -/
theorem pc_mem_fetchAddrs (hwidth : s.pc.toNat < s.span) : s.pc.toNat ∈ s.fetchAddrs := by
  rw [fetchAddrs_eq]
  exact List.mem_map.2 ⟨0, by decide, Nat.mod_eq_of_lt hwidth⟩

theorem ofInt_lt_span (s : State) (v : Int) : s.ofInt v < s.span := by
  rw [← toNat_ofInt_span]
  exact BitVec.isLt _

/-- No step leads from a trapped hart to another state (R388). -/
theorem reachable_of_trapped {u : State} {e : Exc} {v p : DWord} (h : s.status = .trapped e v p)
    (hreach : Reachable s u) : u = s := by
  induction hreach with
  | here => rfl
  | after _ hstep ih =>
    rw [ih, step_of_trapped h] at hstep
    cases hstep

end StepEquations

/-! ### The statements of 60_exceptions.md about the end of a run -/

/-- Settles O12: the halt check comes before the fetch, and the status before both. -/
theorem haltSetStopsTheHart : Obligations.HaltSetStopsTheHart :=
  ⟨fun _ hrun hpc _ hmem => step_of_atHalt hrun hpc (atHalt_of_mem hmem), fun _ => step_of_stopped⟩

/-- Settles O11: the jump completes as every JAL to a multiple of 4 does, and its target is the first byte of the next
fetch. -/
theorem fetchOfVacantBytesTraps : Obligations.FetchOfVacantBytesTraps := by
  refine ⟨fun _ => step_eq_takeTrap_of_vacant, fun s rd off hrun hhalt haligned hvacant => ?_⟩
  obtain ⟨hjal, -⟩ := jumpsTransferOrRaise s rd 0 off 0
  obtain ⟨t, hexec, hpc, hrd, -, -, hcfg, hstatus, -⟩ := hjal haligned
  have hwidth : t.pc.toNat < t.span := by
    rw [hpc, State.span, hcfg]
    exact ofInt_lt_span s _
  have hfetch : t.fetchAddrs.all t.cfg.mapped = false :=
    List.all_eq_false.2 ⟨t.pc.toNat, pc_mem_fetchAddrs hwidth, ne_true_of_eq_false (by rw [hpc, hcfg, hvacant])⟩
  refine ⟨t, hexec, hrd, hpc, ?_⟩
  exact step_eq_takeTrap_of_vacant (hstatus.trans hrun) (hpc ▸ haligned) hwidth
    (atHalt_of_haltSet_eq_nil (hcfg ▸ hhalt)) hfetch

/-- Settles O13: of the outcomes of an instruction only the trap changes the status of a running hart. -/
theorem trapEntryRecordsAndStops : Obligations.TrapEntryRecordsAndStops := by
  refine ⟨fun s e v => ?entry, fun i s t hrun hexec hended => ?only, fun s u e v p htrapped hreach => ?ever⟩
  case entry => exact ⟨s.takeTrap e v, by rw [raise_eq, BitVec.setWidth_eq], rfl, rfl⟩
  case only =>
    cases exec_outcome hexec with
    | trap e v => exact ⟨e, v, rfl⟩
    | advance h | transfer h =>
      obtain ⟨-, -, hstatus, -⟩ := h.keeps
      exact absurd (hstatus.trans hrun) hended
  case ever =>
    obtain rfl := reachable_of_trapped htrapped hreach
    exact ⟨rfl, step_of_trapped htrapped⟩

end Sys2Proof.Proofs

/-!
# What an instruction raises, and that it then has had no effect (R380 to R387, R404)

First the instructions of rows that XLEN does not have, then the accesses to memory: each is its check and then a meaning
that completes. Then every instruction of a row that XLEN has completes or raises an exception that R404 tables for it.
-/
namespace Sys2Proof.Proofs

open Sys2Proof.Machine Sys2Proof.Laws

/-! ### Rows that XLEN does not have (R113) -/

section Admission

variable {s : State} {i : Instr}

theorem only64_not_admits {xl : XLen} : ¬Admission.only64.admits xl = true ↔ xl = .rv32 := by
  cases xl <;> decide

theorem onRv64_of_rv32 (h : s.cfg.xlen = .rv32) (i : Instr) (k : Res) :
    onRv64 s i k = raise s .illegalInstruction (encode i) := by
  rw [onRv64, h]

/-- At XLEN = 32 an instruction of the 64-bit tables raises with its word (R113, R384; log entry 12). -/
theorem exec_of_only64_of_rv32 (hi : i.admission = .only64) (hxl : s.cfg.xlen = .rv32) :
    exec i s = raise s .illegalInstruction (encode i) := by
  cases i with
  | lwu | ld | sd | slli64 | srli64 | srai64 | addiw | slliw | srliw | sraiw | addw | subw | sllw | srlw | sraw | mulw
  | divw | divuw | remw | remuw | lrD | scD | amoswapD | amoaddD | amoxorD | amoorD | amoandD | amominD | amomaxD
  | amominuD | amomaxuD | fcvtLS | fcvtLuS | fcvtSL | fcvtSLu | fcvtLD | fcvtLuD | fcvtDL | fcvtDLu | fmvXD | fmvDX =>
    exact onRv64_of_rv32 hxl _ _
  | _ => cases hi

/-- The shifts of the XLEN = 32 rows complete at both XLEN (log entry 12). -/
theorem completes_of_only32 (hi : i.admission = .only32) (s : State) : Completes s (exec i s) := by
  cases i with
  | slli32 | srli32 | srai32 => exact ⟨_, rfl, rfl⟩
  | _ => cases hi

end Admission

/-! ### Accesses to memory: the check, then the effect (R385, R386) -/

section Accesses

variable {s : State} {i : Instr} {w n : Nat} {a : BitVec w} {k : Access} {atomic : Bool} {rs1 : XReg}
  {imm : BitVec 12}

/-- What the meaning of an access to memory answers: its exception, or the result `r` of its effect. -/
def checkedAccess (s : State) (k : Access) (atomic : Bool) {w : Nat} (a : BitVec w) (n : Nat) (r : Res) : Res :=
  match s.accessExc k atomic a n with
  | some e => raise s e a
  | none => r

theorem checkedAccess_of_some {e : Exc} (h : s.accessExc k atomic a n = some e) (r : Res) :
    checkedAccess s k atomic a n r = raise s e a := by
  rw [checkedAccess, h]

theorem checkedAccess_of_none (h : s.accessExc k atomic a n = none) (r : Res) :
    checkedAccess s k atomic a n r = r := by
  rw [checkedAccess, h]

/-- `IsCheckedAccess s k atomic a n r`: the result `r` is that of an access which completes when its check passes. -/
def IsCheckedAccess (s : State) (k : Access) (atomic : Bool) {w : Nat} (a : BitVec w) (n : Nat) (r : Res) : Prop :=
  ∃ r', r = checkedAccess s k atomic a n r' ∧ Completes s r'

theorem completes_finishX {rd : XReg} {m : Nat} {v : BitVec m} : Completes s (s.finishX rd v) := ⟨_, rfl, rfl⟩

theorem completes_finishF {rd : FReg} {v : DWord} : Completes s (s.finishF rd v) := ⟨_, rfl, rfl⟩

namespace IsCheckedAccess

theorem load {f : BitVec (8 * n) → Res} (h : ∀ v, Completes s (f v)) :
    IsCheckedAccess s .load false a n (load s a n f) :=
  ⟨f (s.memRead a n), rfl, h _⟩

theorem store {m : Nat} {v : BitVec m} : IsCheckedAccess s .store false a n (store s a n v) :=
  ⟨_, rfl, _, rfl, rfl⟩

theorem loadReserved {rd : XReg} : IsCheckedAccess s .load true a n (loadReserved s rd a n) :=
  ⟨_, rfl, _, rfl, rfl⟩

theorem amo {rd : XReg} {op : BitVec (8 * n) → BitVec (8 * n) → BitVec (8 * n)} {v : BitVec (8 * n)} :
    IsCheckedAccess s .store true a n (amo s rd a n op v) :=
  ⟨_, rfl, _, rfl, rfl⟩

/-- An SC whose check passes completes, whether it stores or fails (R227, R230). -/
theorem storeConditional {rd : XReg} {m : Nat} {v : BitVec m} :
    IsCheckedAccess s .store true a n (storeConditional s rd a n v) := by
  refine ⟨_, rfl, ?_⟩
  dsimp only
  split_ifs <;> exact ⟨_, rfl, rfl⟩

theorem onRv64 {r : Res} {j : Instr} (h : IsCheckedAccess s k atomic a n r) (hxl : s.cfg.xlen = .rv64) :
    IsCheckedAccess s k atomic a n (onRv64 s j r) := by
  rwa [onRv64_of_rv64 hxl]

end IsCheckedAccess

/-- The address of an atomic is `x[rs1]` (R225). -/
theorem ea_zero (s : State) (rs1 : XReg) : s.ea rs1 0 = s.rX rs1 := by
  rw [ea_eq_ofInt, show (0 : BitVec 12).toInt = 0 from rfl, add_zero, State.xInt, BitVec.ofInt_toInt]

/-- Every access that exists at XLEN is checked at its effective address before it has any effect (R61, R385, R387). -/
theorem exec_isCheckedAccess (hacc : i.access = some (k, atomic, n, rs1, imm))
    (hadm : i.admission.admits s.cfg.xlen = true) :
    IsCheckedAccess s k atomic (s.ea rs1 imm) n (exec i s) := by
  cases i with
  | lb | lh | lw | lbu | lhu =>
    cases hacc
    exact .load fun _ => completes_finishX
  | lwu | ld =>
    cases hacc
    exact .onRv64 (.load fun _ => completes_finishX) (only64_admits.1 hadm)
  | flw | fld =>
    cases hacc
    exact .load fun _ => completes_finishF
  | sb | sh | sw | fsw | fsd =>
    cases hacc
    exact .store
  | sd =>
    cases hacc
    exact .onRv64 .store (only64_admits.1 hadm)
  | lrW =>
    cases hacc
    exact ea_zero s rs1 ▸ .loadReserved
  | lrD =>
    cases hacc
    exact ea_zero s rs1 ▸ .onRv64 .loadReserved (only64_admits.1 hadm)
  | scW =>
    cases hacc
    exact ea_zero s rs1 ▸ .storeConditional
  | scD =>
    cases hacc
    exact ea_zero s rs1 ▸ .onRv64 .storeConditional (only64_admits.1 hadm)
  | amoswapW | amoaddW | amoxorW | amoorW | amoandW | amominW | amomaxW | amominuW | amomaxuW =>
    cases hacc
    rw [ea_zero]
    -- As in `exec_answers`: without this step the matching would unfold the shared operation first.
    unfold exec
    exact .amo
  | amoswapD | amoaddD | amoxorD | amoorD | amoandD | amominD | amomaxD | amominuD | amomaxuD =>
    cases hacc
    exact ea_zero s rs1 ▸ .onRv64 .amo (only64_admits.1 hadm)
  | _ => cases hacc

/-- Alignment is checked first (R386). -/
theorem accessExc_of_misaligned (h : a.toNat % n ≠ 0 ∧ (atomic = true ∨ s.cfg.misaligned = .trap)) :
    s.accessExc k atomic a n = some (misalignedExc k) :=
  if_pos h

theorem accessExc_of_vacant (h : ¬(a.toNat % n ≠ 0 ∧ (atomic = true ∨ s.cfg.misaligned = .trap)))
    (hvacant : (byteAddrs a n).all s.cfg.mapped = false) : s.accessExc k atomic a n = some (accessFaultExc k) :=
  (if_neg h).trans (if_neg (ne_true_of_eq_false hvacant))

/-- The exceptions of an access of `n` bytes (R385). -/
def accessExcs (k : Access) (n : Nat) : List Exc :=
  if n = 1 then [accessFaultExc k] else [misalignedExc k, accessFaultExc k]

/-- One byte is always aligned (R53). -/
theorem accessExc_mem {e : Exc} (h : s.accessExc k atomic a n = some e) : e ∈ accessExcs k n := by
  unfold State.accessExc at h
  split_ifs at h with hmisaligned hmapped
  · cases h
    have hn : n ≠ 1 := by
      rintro rfl
      exact hmisaligned.1 (Nat.mod_one _)
    rw [accessExcs, if_neg hn]
    exact List.mem_cons_self
  · cases h
    unfold accessExcs
    split_ifs
    · exact List.mem_cons_self
    · exact List.mem_cons_of_mem _ List.mem_cons_self

end Accesses

/-! ### What every instruction raises (R404) -/

section Raises

variable {s : State} {i : Instr}

/-- `CompletesOrRaises es s r`: the result `r` is a next state with the status of `s`, or takes one of the exceptions `es`
at `s` itself. -/
def CompletesOrRaises (es : List Exc) (s : State) (r : Res) : Prop :=
  Completes s r ∨ ∃ e ∈ es, ∃ v, r = .next (s.takeTrap e v)

namespace CompletesOrRaises

theorem raise {es : List Exc} {e : Exc} (he : e ∈ es) (s : State) {n : Nat} (v : BitVec n) :
    CompletesOrRaises es s (raise s e v) :=
  .inr ⟨e, he, _, rfl⟩

theorem exists_next {es : List Exc} {r : Res} (h : CompletesOrRaises es s r) : ∃ t, r = .next t := by
  obtain ⟨t, ht, -⟩ | ⟨e, -, v, ht⟩ := h
  · exact ⟨t, ht⟩
  · exact ⟨_, ht⟩

theorem jump {rd : XReg} {a : BitVec s.cfg.xlen.bits} :
    CompletesOrRaises [.instructionAddressMisaligned] s (jump s rd a) := by
  unfold Machine.jump
  split_ifs
  · exact .inl ⟨_, rfl, rfl⟩
  · exact raise List.mem_cons_self s _

theorem branch {c : Bool} {off : BitVec 13} :
    CompletesOrRaises [.instructionAddressMisaligned] s (branch s c off) := by
  unfold Machine.branch
  dsimp only
  split_ifs
  · exact .inl ⟨_, rfl, rfl⟩
  · exact raise List.mem_cons_self s _
  · exact .inl ⟨_, rfl, rfl⟩

theorem onRv64 {es : List Exc} {r : Res} {j : Instr} (h : CompletesOrRaises es s r) (hxl : s.cfg.xlen = .rv64) :
    CompletesOrRaises es s (onRv64 s j r) := by
  rwa [onRv64_of_rv64 hxl]

/-- An instruction with an `rm` field raises IllegalInstruction or completes (R112). -/
theorem of_rmField {rm : Rm} (hrm : i.rmField = some rm) (hadm : i.admission.admits s.cfg.xlen = true) :
    CompletesOrRaises [.illegalInstruction] s (exec i s) := by
  obtain ⟨k, hexec, hcompletes⟩ := exec_eq_withRm hrm hadm
  rw [hexec]
  unfold withRm
  split
  · exact .inl (hcompletes _)
  · exact raise List.mem_cons_self s _

/-- An access to memory raises an exception of its side or completes (R385). -/
theorem of_access {k : Access} {atomic : Bool} {n : Nat} {rs1 : XReg} {imm : BitVec 12}
    (hacc : i.access = some (k, atomic, n, rs1, imm)) (hadm : i.admission.admits s.cfg.xlen = true) :
    CompletesOrRaises (accessExcs k n) s (exec i s) := by
  obtain ⟨r, hexec, hcompletes⟩ := exec_isCheckedAccess hacc hadm
  cases hexc : s.accessExc k atomic (s.ea rs1 imm) n with
  | some e =>
    rw [hexec, checkedAccess_of_some hexc]
    exact raise (accessExc_mem hexc) s _
  | none =>
    rw [hexec, checkedAccess_of_none hexc]
    exact .inl hcompletes

end CompletesOrRaises

/-- An instruction that exists at XLEN completes or raises an exception that R404 tables for it. -/
theorem exec_completesOrRaises (hadm : i.admission.admits s.cfg.xlen = true) :
    CompletesOrRaises i.raisable s (exec i s) := by
  cases i with
  | jal | jalr => exact .jump
  | beq | bne | blt | bge | bltu | bgeu => exact .branch
  | lb | lh | lw | lbu | lhu | lwu | ld | sb | sh | sw | sd | flw | fld | fsw | fsd | lrW | lrD | scW | scD | amoswapW
  | amoaddW | amoxorW | amoorW | amoandW | amominW | amomaxW | amominuW | amomaxuW | amoswapD | amoaddD | amoxorD
  | amoorD | amoandD | amominD | amomaxD | amominuD | amomaxuD => exact .of_access rfl hadm
  | fmaddS | fmsubS | fnmsubS | fnmaddS | faddS | fsubS | fmulS | fdivS | fsqrtS | fcvtWS | fcvtWuS | fcvtSW | fcvtSWu
  | fcvtLS | fcvtLuS | fcvtSL | fcvtSLu | fmaddD | fmsubD | fnmsubD | fnmaddD | faddD | fsubD | fmulD | fdivD | fsqrtD
  | fcvtWD | fcvtWuD | fcvtDW | fcvtDWu | fcvtLD | fcvtLuD | fcvtDL | fcvtDLu => exact .of_rmField rfl hadm
  | slli64 | srli64 | srai64 | addiw | slliw | srliw | sraiw | addw | subw | sllw | srlw | sraw | mulw | divw | divuw | remw
  | remuw | fmvXD => exact .onRv64 (.inl completes_finishX) (only64_admits.1 hadm)
  | fmvDX => exact .onRv64 (.inl completes_finishF) (only64_admits.1 hadm)
  | _ => exact .inl ⟨_, rfl, rfl⟩

/-- No instruction is without an answer, also where its row does not exist (R389). -/
theorem exec_exists_next (i : Instr) (s : State) : ∃ t, exec i s = .next t := by
  by_cases hadm : i.admission.admits s.cfg.xlen = true
  · exact (exec_completesOrRaises hadm).exists_next
  · cases hi : i.admission with
    | both => exact absurd (hi ▸ rfl) hadm
    | only32 =>
      obtain ⟨t, ht, -⟩ := completes_of_only32 hi s
      exact ⟨t, ht⟩
    | only64 => exact ⟨_, exec_of_only64_of_rv32 hi (only64_not_admits.1 (hi ▸ hadm))⟩

/-- Whatever the fetched bytes spell, running them answers a next state (R110, R111). -/
theorem runBytes_exists_next (s : State) (bs : List Byte) : ∃ t, runBytes s bs = .next t := by
  unfold runBytes
  split
  · exact exec_exists_next _ s
  · exact ⟨_, rfl⟩
  · exact ⟨_, rfl⟩

end Raises

/-! ### The statements of 60_exceptions.md about single instructions -/

/-- Settles O38: an instruction that completes has the status of before, which is running. -/
theorem onlyTabledExceptionsAndPrecise : Obligations.OnlyTabledExceptionsAndPrecise := by
  intro i s t hrun hadm hexec
  obtain ⟨u, hu, hstatus⟩ | ⟨e, he, v, hu⟩ := exec_completesOrRaises hadm
  · obtain rfl := Host.Outcome.next.inj (hu.symm.trans hexec)
    exact .inl (hstatus.trans hrun)
  · exact .inr ⟨e, v, he, Host.Outcome.next.inj (hexec.symm.trans hu)⟩

/-- Settles O14: a running hart stops, traps on its fetch, or runs what it fetched. -/
theorem everyInstructionAnswersANextState : Obligations.EveryInstructionAnswersANextState := by
  refine ⟨exec_exists_next, fun s hrun hpc => ?_⟩
  cases hhalt : s.atHalt with
  | true => exact ⟨_, step_of_atHalt hrun hpc hhalt⟩
  | false =>
    cases hmap : s.fetchAddrs.all s.cfg.mapped with
    | true => exact step_eq_runBytes hrun hpc hhalt hmap ▸ runBytes_exists_next _ _
    | false => exact ⟨_, step_of_vacant hrun hpc hhalt hmap⟩

/-- Settles O36: every access is checked at its effective address, first for alignment and then for existing bytes. -/
theorem dataAccessExceptions : Obligations.DataAccessExceptions := by
  intro s i k atomic n rs1 imm hacc hadm a misaligned
  have ha : (s.ea rs1 imm).toNat = a := by rw [ea_eq_ofInt, toNat_ofInt_span]
  obtain ⟨r, hexec, -⟩ := exec_isCheckedAccess hacc hadm
  have traps {e : Exc} (h : s.accessExc k atomic (s.ea rs1 imm) n = some e) : Traps s i e a :=
    ha ▸ traps_of_raise (hexec.trans (checkedAccess_of_some h r))
  refine ⟨fun hmisaligned => ?misaligned, fun haligned hvacant => ?vacant, ?byte⟩
  case misaligned =>
    have hexc := traps (accessExc_of_misaligned (ha.symm ▸ hmisaligned))
    cases k <;> exact hexc
  case vacant =>
    obtain ⟨j, hj, hmapped⟩ := hvacant
    have hall : (byteAddrs (s.ea rs1 imm) n).all s.cfg.mapped = false := by
      rw [byteAddrs_eq, ha]
      exact List.all_eq_false.2 ⟨_, List.mem_map_of_mem (List.mem_range.2 hj), ne_true_of_eq_false hmapped⟩
    have hexc := traps (accessExc_of_vacant (ha.symm ▸ haligned) hall)
    cases k <;> exact hexc
  case byte =>
    rintro rfl ⟨hmod, -⟩
    exact hmod (Nat.mod_one a)

end Sys2Proof.Proofs
